-- ==== Sys2Proof/Word.lean ====
section
/-! DEFINITION. The word types of the CORE (00_scope.md R6): a byte is 8 bits and every word is 32 bits,
both unsigned. `Words8` and `Words16` are the CORE's two register-array shapes. -/

namespace Sys2Proof

/-- A 32-bit unsigned word (R6). -/
abbrev Word := BitVec 32

/-- An 8-bit byte (R6). -/
abbrev Byte := BitVec 8

/-- Eight words: H, KEY and SMK (R30, R33, R34). -/
abbrev Words8 := Vector Word 8

/-- Sixteen words, 64 bytes: MSG, DATA, KS and the ChaCha matrices (R32, R37, R38, R162). -/
abbrev Words16 := Vector Word 16

/-- A byte block as the framer and the Digest Core handle it: a byte sequence indexed from 0 (R8), of 64 bytes. -/
abbrev Block := List Byte

end Sys2Proof
end

