-- ==== Sys2Proof/Syntax.lean ====
section
/-! DEFINITION. The commands of the CORE: one constructor per row of the opcode table (30_encoding.md R93). -/

namespace Sys2Proof

/-- The eight commands. The only operand a command word carries is the 7-bit byte count N (R92); every other operand
is a register that the command's rule names. -/
inductive Instr where
  /-- OPC 0x00, NOP (44_control.md R210). -/
  | nop
  /-- OPC 0x01, SHA_INIT (40_digest_core.md R125). -/
  | shaInit
  /-- OPC 0x02, SHA_COMPRESS (40_digest_core.md R126). -/
  | shaCompress
  /-- OPC 0x03, SHA_CHUNK N (41_framer.md R145). -/
  | shaChunk (n : BitVec 7)
  /-- OPC 0x04, KEY_FROM_DIGEST (44_control.md R211). -/
  | keyFromDigest
  /-- OPC 0x05, CHACHA_INIT (42_keystream_core.md R170). -/
  | chachaInit
  /-- OPC 0x06, CHACHA_BLOCK (42_keystream_core.md R171). -/
  | chachaBlock
  /-- OPC 0x07, CHACHA_XOR N (43_stream_driver.md R193). -/
  | chachaXor (n : BitVec 7)
  deriving DecidableEq, Repr

end Sys2Proof
end

