-- ==== Sys2Proof/WellFormed.lean ====
section
/-! DEFINITION. Which commands are legal: the legal values of N (30_encoding.md R94). -/

namespace Sys2Proof

/-- The legal lengths of R94: 0 to 64 for SHA_CHUNK, 1 to 64 for CHACHA_XOR; the other commands carry no length. -/
def Instr.wellFormed : Instr → Bool
  | .shaChunk n => decide (n.toNat ≤ 64)
  | .chachaXor n => decide (1 ≤ n.toNat ∧ n.toNat ≤ 64)
  | .nop => true
  | .shaInit => true
  | .shaCompress => true
  | .keyFromDigest => true
  | .chachaInit => true
  | .chachaBlock => true

end Sys2Proof
end

