-- ==== Sys2Proof/Decode.lean ====
section
/-! DEFINITION. Decoding a command word, total and rejecting by name (30_encoding.md R90 to R97), and the encoder
written from the same tables (R91, R93). -/

namespace Sys2Proof

/-- What a 32-bit word decodes to (R96): a command with its N, or one of the two encoding errors. -/
inductive Decoded where
  /-- A defined command with a legal N. -/
  | cmd (i : Instr)
  /-- ILLEGAL_CMD (60_exceptions.md R222). -/
  | illegalCmd
  /-- BAD_LENGTH (60_exceptions.md R223). -/
  | badLength
  deriving DecidableEq, Repr

/-- OPC, bits 7:0 (R91). -/
def opcOf (v : Word) : BitVec 8 := v.extractLsb' 0 8

/-- N, bits 14:8 (R91, R92). -/
def lengthOf (v : Word) : BitVec 7 := v.extractLsb' 8 7

/-- RES, bits 31:15 (R91). -/
def reservedOf (v : Word) : BitVec 17 := v.extractLsb' 15 17

/-- A command without a length: N must be 0, else ILLEGAL_CMD (R95 item 3). -/
def decodeFixed (i : Instr) (n : BitVec 7) : Decoded :=
  if n = 0 then .cmd i else .illegalCmd

/-- A command with a length: N must be legal, else BAD_LENGTH (R95 items 4 and 5). -/
def decodeSized (i : Instr) : Decoded :=
  if i.wellFormed then .cmd i else .badLength

/-- R96: every 32-bit word decodes to exactly one of a command, ILLEGAL_CMD or BAD_LENGTH, whatever the state (R97). -/
def decode (v : Word) : Decoded :=
  if reservedOf v = 0 then
    match (opcOf v).toNat with
    | 0x00 => decodeFixed .nop (lengthOf v)
    | 0x01 => decodeFixed .shaInit (lengthOf v)
    | 0x02 => decodeFixed .shaCompress (lengthOf v)
    | 0x03 => decodeSized (.shaChunk (lengthOf v))
    | 0x04 => decodeFixed .keyFromDigest (lengthOf v)
    | 0x05 => decodeFixed .chachaInit (lengthOf v)
    | 0x06 => decodeFixed .chachaBlock (lengthOf v)
    | 0x07 => decodeSized (.chachaXor (lengthOf v))
    | _ => .illegalCmd
  else .illegalCmd

/-- The OPC column of R93. -/
def Instr.opcode : Instr → BitVec 8
  | .nop => 0x00
  | .shaInit => 0x01
  | .shaCompress => 0x02
  | .shaChunk _ => 0x03
  | .keyFromDigest => 0x04
  | .chachaInit => 0x05
  | .chachaBlock => 0x06
  | .chachaXor _ => 0x07

/-- The N field a command's word carries: its byte count, or 0 where it has none (R93). -/
def Instr.length : Instr → BitVec 7
  | .shaChunk n => n
  | .chachaXor n => n
  | .nop => 0
  | .shaInit => 0
  | .shaCompress => 0
  | .keyFromDigest => 0
  | .chachaInit => 0
  | .chachaBlock => 0

/-- The command word of R91 and R98, `OPC | N << 8`, with RES = 0. -/
def encode (i : Instr) : Word := i.opcode.setWidth 32 ||| (i.length.setWidth 32 <<< 8)

/-- The command my decoder reads from a row of spec/opcode_table.json whose bits are w: the command word is the data of
a CMD write (R90), so its bits are the table's. -/
def decodeTableWord (nbits w : Nat) : Option Instr :=
  match decode (BitVec.ofNat 32 (w % 2 ^ nbits)) with
  | .cmd i => some i
  | .illegalCmd => none
  | .badLength => none

end Sys2Proof
end

