-- ==== Sys2Proof/Config.lean ====
section
/-! DEFINITION. What one implementation fixes: the OPEN parameters of 00_scope.md R7 (constants without a body, so
that a claim holds for every value of them), and the fixed figures of R7. -/

namespace Sys2Proof

/-- NONCE_C0, ChaCha state word 14: OPEN, the spec gives no value (R7, R36; 92 D7; log entry 7). -/
opaque Config.nonceC0 : Word

/-- NONCE_C1, ChaCha state word 15: OPEN, the spec gives no value (R7, R36; 92 D7; log entry 7). -/
opaque Config.nonceC1 : Word

/-- BASE, the byte address at which the platform places the register window: OPEN (R7, R60; 92 D31; log entry 8). -/
opaque Config.base : Nat

/-- LATENCY, the time a command takes: OPEN, and no rule depends on it (R7, R260; 92 D22). This model is the spec's
reference model, in which every command is atomic; nothing reads this constant (log entry 1). -/
opaque Config.latency : Nat

/-- The window is 0x200 bytes (R7, R60). -/
def Config.windowSize : Nat := 0x200

end Sys2Proof
end

