-- ==== Sys2Proof/Machine/State.lean ====
section
/-! DEFINITION. The state of the CORE (10_state.md R20): every host-visible register that holds a value, the hidden
latched key, and the host's queue of accesses with the responses it got. ID, CMD, NONCE0 and NONCE1 hold no state (R21,
R22, R36); W, a..h, S and X are scratch inside one command (R40). The CORE has no memory, pc or register file (R41, R42, R60). -/

namespace Sys2Proof.Machine

/-- STATUS.ERRCODE: the five values it takes (10_state.md R28, 60_exceptions.md R221; log entry 9). -/
inductive ErrorCode where
  /-- Code 0: no error. -/
  | none
  /-- Code 1, ILLEGAL_CMD (R222). -/
  | illegalCmd
  /-- Code 2, BAD_LENGTH (R223). -/
  | badLength
  /-- Code 3, SHA_SEALED (R224). -/
  | shaSealed
  /-- Code 4, STREAM_SEALED (R225). -/
  | streamSealed
  deriving DecidableEq, Repr

/-- The registers of the window (20_memory.md R61), by name. -/
inductive Reg where
  | id
  | cmd
  | status
  | errcmd
  | h (i : Fin 8)
  | lenLo
  | lenHi
  | msg (i : Fin 16)
  | key (i : Fin 8)
  | ctrLo
  | ctrHi
  | nonce0
  | nonce1
  | data (i : Fin 16)
  | ks (i : Fin 16)
  | reserved
  deriving DecidableEq, Repr

/-- What the outside world does to the CORE: the two host bus accesses of 00_scope.md R9, whose address is a byte
offset of the register window and whose n is the width in bytes, and the platform's reset input (70_reset_and_hazards.md
R250). The 32 data bits of a write are the only ones the CORE can take (20_memory.md R62; log entry 6). -/
inductive HostEvent where
  | memRead (off n : Nat)
  | memWrite (off n : Nat) (v : Word)
  | reset
  deriving DecidableEq, Repr

/-- What the host sees of one access (20_memory.md R64 to R66; log entry 5). -/
inductive Response where
  /-- A performed read, with its data. -/
  | readData (v : Word)
  /-- A performed write. -/
  | writeDone
  /-- A read refused with the bus's error indication, and the data it returns (R64). -/
  | readBusError (v : Word)
  /-- A write refused with the bus's error indication (R64). -/
  | writeBusError
  deriving DecidableEq, Repr

/-- The state of the CORE (R20), and the model's own two fields `pending` and `responses` (log entry 2). -/
structure State where
  /-- STATUS bit 0 (R24). The reference model never sets it (log entry 1). -/
  busy : Bool
  /-- STATUS bit 1, the framer's final-block flag (R25). -/
  shaDone : Bool
  /-- STATUS bit 2, the driver's final-chunk flag (R26). -/
  streamDone : Bool
  /-- STATUS bit 3, the sticky error flag (R27). -/
  err : Bool
  /-- STATUS bits 7:4 (R28). -/
  errCode : ErrorCode
  /-- ERRCMD (R29). -/
  errCmd : Word
  /-- H[0..7], the Digest State (R30). -/
  h : Words8
  /-- LEN_LO (R31). -/
  lenLo : Word
  /-- LEN_HI (R31). -/
  lenHi : Word
  /-- MSG[0..15], the message buffer (R32). -/
  msg : Words16
  /-- KEY[0..7], the Cipher Key register (R33). -/
  key : Words8
  /-- SMK[0..7], the latched key, hidden from the host (R34). -/
  smk : Words8
  /-- CTR_LO (R35). -/
  ctrLo : Word
  /-- CTR_HI (R35). -/
  ctrHi : Word
  /-- DATA[0..15], the stream data buffer (R37). -/
  data : Words16
  /-- KS[0..15], the keystream buffer (R38). -/
  ks : Words16
  /-- The host's events that the CORE has not yet performed, oldest first (R73; log entry 2). -/
  pending : List HostEvent
  /-- The responses to the accesses performed so far, newest first (R64, R65; log entry 2). -/
  responses : List Response
  deriving DecidableEq, Repr

/-- Why the machine stops. -/
inductive Fault where
  /-- Raised by `perform` on an access whose offset is 0x200 or more: the CORE does not decode it (20_memory.md R61).
  Safe: the CORE's state would not change, and no access that the platform routes to the window reaches it (log entry 3). -/
  | outsideWindow
  deriving DecidableEq, Repr

/-- Why a step has no meaning. -/
inductive Refusal where
  /-- A command whose meaning is not written yet; raised by no arm of `exec`. Safe. -/
  | notModelled (mnemonic : String)
  /-- Raised by `perform` on an access other than a 4-byte read of STATUS while BUSY = 1: "A model refuses it, meaning
  the host step has no meaning" (20_memory.md R76). Safe: no state that a run reaches has BUSY = 1. -/
  | accessWhileBusy
  deriving DecidableEq, Repr

/-- The reset values of 10_state.md R44; the queue of host events is empty, and no response has been given. -/
def State.reset : State where
  busy := false
  shaDone := false
  streamDone := false
  err := false
  errCode := .none
  errCmd := 0
  h := initialHash
  lenLo := 0
  lenHi := 0
  msg := Vector.replicate 16 0
  key := Vector.replicate 8 0
  smk := Vector.replicate 8 0
  ctrLo := 0
  ctrHi := 0
  data := Vector.replicate 16 0
  ks := Vector.replicate 16 0
  pending := []
  responses := []

/-- What every meaning answers: a next state, a fault or a refusal. -/
abbrev Result := Host.Outcome State Fault Refusal

end Sys2Proof.Machine
end

