-- ==== Sys2Proof/Machine/Operands.lean ====
section
/-! DEFINITION. Operand forms: the byte lanes of the 64-byte buffers, the byte-order functions of 00_scope.md R8, the
block the Digest Core reads, and the register map of the window. -/

namespace Sys2Proof.Machine

/-- BE32(b0,b1,b2,b3) = b0<<24 | b1<<16 | b2<<8 | b3 (R8). -/
def be32 (b0 b1 b2 b3 : Byte) : Word :=
  (b0.setWidth 32 <<< 24) ||| (b1.setWidth 32 <<< 16) ||| (b2.setWidth 32 <<< 8) ||| b3.setWidth 32

/-- LE32(b0,b1,b2,b3) = b3<<24 | b2<<16 | b1<<8 | b0 (R8). -/
def le32 (b0 b1 b2 b3 : Byte) : Word :=
  (b3.setWidth 32 <<< 24) ||| (b2.setWidth 32 <<< 16) ||| (b1.setWidth 32 <<< 8) ||| b0.setWidth 32

/-- BE64bytes(L): the 8 bytes of a 64-bit number, most significant first (R8). -/
def be64bytes (l : BitVec 64) : List Byte :=
  [l.extractLsb' 56 8, l.extractLsb' 48 8, l.extractLsb' 40 8, l.extractLsb' 32 8,
   l.extractLsb' 24 8, l.extractLsb' 16 8, l.extractLsb' 8 8, l.extractLsb' 0 8]

/-- Byte lane k of a word, bits 8k+7:8k (20_memory.md R67). -/
def byteLane (w : Word) (k : Nat) : Byte := w.extractLsb' (8 * k) 8

/-- Byte j of a 64-byte buffer, 0 ≤ j ≤ 63: lane j & 3 of word j >> 2 (R67, and R190 for a keystream block). -/
def byteAt (m : Words16) (j : Nat) : Byte := byteLane (m[j / 4]?.getD 0) (j % 4)

/-- The 64-byte buffer whose byte j is b j, by the same lanes (R67). -/
def bufferOf (b : Nat → Byte) : Words16 :=
  Vector.ofFn fun i : Fin 16 => le32 (b (4 * i)) (b (4 * i + 1)) (b (4 * i + 2)) (b (4 * i + 3))

/-- BlockOf(MSG): the 64 bytes of a buffer in byte order (40_digest_core.md R124). -/
def blockOf (m : Words16) : Block := (List.range 64).map (byteAt m)

/-- n zero bytes (41_framer.md R142, R143). -/
def zeros (n : Nat) : List Byte := List.replicate n 0

/-- The register at a word-aligned offset of the window (20_memory.md R61). -/
def regAt (off : Nat) : Reg :=
  if off < 0x004 then .id
  else if off < 0x008 then .cmd
  else if off < 0x00C then .status
  else if off < 0x010 then .errcmd
  else if off < 0x030 then .h ⟨(off - 0x010) / 4 % 8, Nat.mod_lt _ (by decide)⟩
  else if off < 0x034 then .lenLo
  else if off < 0x038 then .lenHi
  else if off < 0x040 then .reserved
  else if off < 0x080 then .msg ⟨(off - 0x040) / 4 % 16, Nat.mod_lt _ (by decide)⟩
  else if off < 0x0A0 then .key ⟨(off - 0x080) / 4 % 8, Nat.mod_lt _ (by decide)⟩
  else if off < 0x0A4 then .ctrLo
  else if off < 0x0A8 then .ctrHi
  else if off < 0x0AC then .nonce0
  else if off < 0x0B0 then .nonce1
  else if off < 0x0C0 then .reserved
  else if off < 0x100 then .data ⟨(off - 0x0C0) / 4 % 16, Nat.mod_lt _ (by decide)⟩
  else if off < 0x140 then .ks ⟨(off - 0x100) / 4 % 16, Nat.mod_lt _ (by decide)⟩
  else .reserved

/-- The offset of a named register (R61); for the reserved words, the first of them. -/
def offsetOf : Reg → Nat
  | .id => 0x000
  | .cmd => 0x004
  | .status => 0x008
  | .errcmd => 0x00C
  | .h i => 0x010 + 4 * i
  | .lenLo => 0x030
  | .lenHi => 0x034
  | .reserved => 0x038
  | .msg i => 0x040 + 4 * i
  | .key i => 0x080 + 4 * i
  | .ctrLo => 0x0A0
  | .ctrHi => 0x0A4
  | .nonce0 => 0x0A8
  | .nonce1 => 0x0AC
  | .data i => 0x0C0 + 4 * i
  | .ks i => 0x100 + 4 * i

/-- The window offset of a byte address of the platform's bus, where the CORE decodes it: BASE to BASE + 0x1FF
(R60, R61). -/
def busOffset (addr : Nat) : Option Nat :=
  if Config.base ≤ addr ∧ addr < Config.base + Config.windowSize then some (addr - Config.base) else none

/-- The event a bus read of n bytes at a platform address is to the CORE; none where the CORE does not decode it (R61). -/
def busRead (addr n : Nat) : Option HostEvent := (busOffset addr).map fun off => .memRead off n

/-- The event a bus write is to the CORE; none where the CORE does not decode it (R61). -/
def busWrite (addr n : Nat) (v : Word) : Option HostEvent := (busOffset addr).map fun off => .memWrite off n v

end Sys2Proof.Machine
end

