-- ==== Sys2Proof/Machine/Flags.lean ====
section
/-! DEFINITION. The STATUS word and the carries: every flag the CORE has (10_state.md R23, R43), the two 64-bit
counters kept as halves, and the seal a short chunk sets. -/

namespace Sys2Proof.Machine

/-- The 4-bit code of STATUS.ERRCODE (60_exceptions.md R221). -/
def ErrorCode.bits : ErrorCode → BitVec 4
  | .none => 0
  | .illegalCmd => 1
  | .badLength => 2
  | .shaSealed => 3
  | .streamSealed => 4

/-- A one-bit field as a word. -/
def flagWord (b : Bool) : Word := if b then 1 else 0

/-- STATUS as a read composes it: ERRCODE << 4 | ERR << 3 | STREAM_DONE << 2 | SHA_DONE << 1 | BUSY, bits 31:8 zero
(R23, 20_memory.md R65). -/
def statusWord (s : State) : Word :=
  (s.errCode.bits.setWidth 32 <<< 4) ||| (flagWord s.err <<< 3) ||| (flagWord s.streamDone <<< 2) |||
    (flagWord s.shaDone <<< 1) ||| flagWord s.busy

/-- {hi:lo}, the 64-bit number of two halves (R8). -/
def pair64 (hi lo : Word) : BitVec 64 := (hi.setWidth 64 <<< 32) ||| lo.setWidth 64

/-- LEN_LO after a chunk of n bytes (41_framer.md R140). -/
def lenLoAfter (n : Nat) (lo : Word) : Word := BitVec.ofNat 32 (lo.toNat + 8 * n)

/-- LEN_HI after a chunk of n bytes: the carry of the low half, modulo 2^32 (41_framer.md R140). -/
def lenHiAfter (n : Nat) (lo hi : Word) : Word := if 2 ^ 32 ≤ lo.toNat + 8 * n then hi + 1 else hi

/-- CTR_LO after an increment (43_stream_driver.md R191). -/
def ctrLoAfter (lo : Word) : Word := if lo = 0xFFFFFFFF then 0 else lo + 1

/-- CTR_HI after an increment: the carry of the low half, wrapping (43_stream_driver.md R191, R192). -/
def ctrHiAfter (lo hi : Word) : Word := if lo = 0xFFFFFFFF then hi + 1 else hi

/-- A DONE flag after a chunk of n bytes: a chunk shorter than 64 bytes seals, a full one leaves the flag
(41_framer.md R146, 43_stream_driver.md R194). -/
def sealedBy (n : Nat) (flag : Bool) : Bool := if n < 64 then true else flag

end Sys2Proof.Machine
end

