-- ==== Sys2Proof/Machine/Ops.lean ====
section
/-! DEFINITION. The operations the commands and the window share: error entry and error clear, the checks that come
before a command's effect, the response to an access, reading a register, and reset. -/

namespace Sys2Proof.Machine

/-- Error entry, `raise Error(code)` for the command word v (60_exceptions.md R227): ERR, ERRCODE and ERRCMD, and
nothing else. -/
def raiseError (code : ErrorCode) (v : Word) (s : State) : State :=
  { s with err := true, errCode := code, errCmd := v }

/-- Error clear (60_exceptions.md R229), the return from an error: it undoes and re-runs nothing. -/
def clearError (s : State) : State :=
  { s with err := false, errCode := .none, errCmd := 0 }

/-- The error a command meets before its effect, the first in the order of 60_exceptions.md R226: its length (R223),
then its seal (R224, R225). -/
def commandError (i : Instr) (s : State) : Option ErrorCode :=
  match i with
  | .shaChunk n =>
    if 64 < n.toNat then some .badLength
    else if s.shaDone then some .shaSealed
    else none
  | .chachaXor n =>
    if n.toNat = 0 ∨ 64 < n.toNat then some .badLength
    else if s.streamDone then some .streamSealed
    else none
  | .nop => none
  | .shaInit => none
  | .shaCompress => none
  | .keyFromDigest => none
  | .chachaInit => none
  | .chachaBlock => none

/-- Run command i, whose effect on s is the state t: ignored while ERR = 1 (60_exceptions.md R228), turned into error
entry where one of its checks fails (R226, R227), and otherwise t. -/
def runCommand (i : Instr) (s t : State) : Result :=
  if s.err then .next s
  else match commandError i s with
    | some code => .next (raiseError code (encode i) s)
    | none => .next t

/-- The state with another queue of host events. -/
def State.withPending (s : State) (p : List HostEvent) : State := { s with pending := p }

/-- Record the response to an access. -/
def respond (r : Response) (s : State) : State := { s with responses := r :: s.responses }

/-- The reset input (70_reset_and_hazards.md R250): all CORE state at its reset value; what the host has still to issue
and what it has seen are the host's, and stay (log entry 2). -/
def resetEvent (s : State) : State := { State.reset with pending := s.pending, responses := s.responses }

/-- The value a legal MemRead returns, by the register's class (20_memory.md R65). -/
def readReg (r : Reg) (s : State) : Word :=
  match r with
  | .id => idValue
  | .cmd => 0
  | .status => statusWord s
  | .errcmd => s.errCmd
  | .h i => s.h[i]
  | .lenLo => s.lenLo
  | .lenHi => s.lenHi
  | .msg i => s.msg[i]
  | .key i => s.key[i]
  | .ctrLo => s.ctrLo
  | .ctrHi => s.ctrHi
  | .nonce0 => Config.nonceC0
  | .nonce1 => Config.nonceC1
  | .data i => s.data[i]
  | .ks i => s.ks[i]
  | .reserved => 0

/-- The wrong-width and misaligned accesses of 20_memory.md R62 and R63. -/
def isBusError (off n : Nat) : Bool := decide (n ≠ 4 ∨ off % 4 ≠ 0)

end Sys2Proof.Machine
end

