-- ==== Sys2Proof/Machine/Control.lean ====
section
/-! DEFINITION. The control and glue commands: NOP and KEY_FROM_DIGEST (44_control.md). -/

namespace Sys2Proof.Machine

/-- NOP (R210): no state change. -/
def execNop (s : State) : Result := runCommand .nop s s

/-- KEY_FROM_DIGEST (R211): a numeric word copy of H into KEY; SHA_DONE is not checked and SMK is not changed. -/
def execKeyFromDigest (s : State) : Result := runCommand .keyFromDigest s { s with key := s.h }

end Sys2Proof.Machine
end

