-- ==== Sys2Proof/Machine/Digest.lean ====
section
/-! DEFINITION. The Digest Core: SHA-256 compression and the commands SHA_INIT and SHA_COMPRESS (40_digest_core.md). -/

namespace Sys2Proof.Machine

/-- SHR(x, n), the shift that fills with zeros (R110). -/
def shr (x : Word) (n : Nat) : Word := x >>> n

/-- ROTR(x, n) for 0 < n < 32 (R110). -/
def rotr (x : Word) (n : Nat) : Word := shr x n ||| (x <<< (32 - n))

/-- σ0 (R111). -/
def smallSigma0 (x : Word) : Word := rotr x 7 ^^^ rotr x 18 ^^^ shr x 3

/-- σ1 (R112). -/
def smallSigma1 (x : Word) : Word := rotr x 17 ^^^ rotr x 19 ^^^ shr x 10

/-- Σ0, on working register a (R113). -/
def bigSigma0 (x : Word) : Word := rotr x 2 ^^^ rotr x 13 ^^^ rotr x 22

/-- Σ1, on working register e (R114). -/
def bigSigma1 (x : Word) : Word := rotr x 6 ^^^ rotr x 11 ^^^ rotr x 25

/-- Ch, the choice function (R115). -/
def ch (e f g : Word) : Word := (e &&& f) ^^^ (~~~e &&& g)

/-- Maj, the majority function (R116). -/
def maj (a b c : Word) : Word := (a &&& b) ^^^ (a &&& c) ^^^ (b &&& c)

/-- W[t] for t < 16: the block's big-endian words (R119). -/
def blockWord (b : Block) (t : Nat) : Word :=
  be32 (b.getD (4 * t) 0) (b.getD (4 * t + 1) 0) (b.getD (4 * t + 2) 0) (b.getD (4 * t + 3) 0)

/-- One step of the schedule recurrence, appending W[t] where t is the number of words so far (R120). -/
def extendSchedule (w : List Word) : List Word :=
  let t := w.length
  w ++ [w.getD (t - 16) 0 + smallSigma0 (w.getD (t - 15) 0) + w.getD (t - 7) 0 + smallSigma1 (w.getD (t - 2) 0)]

/-- The message schedule W[0..63] of a block (R119, R120). -/
def schedule (b : Block) : List Word :=
  Nat.repeat extendSchedule 48 ((List.range 16).map (blockWord b))

/-- The eight working registers (R121). -/
structure Working where
  a : Word
  b : Word
  c : Word
  d : Word
  e : Word
  f : Word
  g : Word
  h : Word
  deriving DecidableEq, Repr

/-- One round with its round constant and schedule word (R121). -/
def shaRound (v : Working) (k w : Word) : Working :=
  let t1 := v.h + bigSigma1 v.e + ch v.e v.f v.g + k + w
  let t2 := bigSigma0 v.a + maj v.a v.b v.c
  { h := v.g, g := v.f, f := v.e, e := v.d + t1, d := v.c, c := v.b, b := v.a, a := t1 + t2 }

/-- The working set after the first t rounds (R121). -/
def workingSet (h : Words8) (w : List Word) : Nat → Working
  | 0 => { a := h[0], b := h[1], c := h[2], d := h[3], e := h[4], f := h[5], g := h[6], h := h[7] }
  | t + 1 => shaRound (workingSet h w t) (roundConstant t) (w.getD t 0)

/-- Compress(H, B): schedule, 64 rounds, feed-forward (R119 to R123). -/
def compress (h : Words8) (b : Block) : Words8 :=
  let v := workingSet h (schedule b) 64
  #v[h[0] + v.a, h[1] + v.b, h[2] + v.c, h[3] + v.d, h[4] + v.e, h[5] + v.f, h[6] + v.g, h[7] + v.h]

/-- SHA_INIT (R125). -/
def execShaInit (s : State) : Result :=
  runCommand .shaInit s { s with h := initialHash, lenLo := 0, lenHi := 0, shaDone := false }

/-- SHA_COMPRESS (R126): H only; LEN and SHA_DONE are neither read nor changed. -/
def execShaCompress (s : State) : Result :=
  runCommand .shaCompress s { s with h := compress s.h (blockOf s.msg) }

end Sys2Proof.Machine
end

