-- ==== Sys2Proof/Machine/Framer.lean ====
section
/-! DEFINITION. The Padding/Length Framer: SHA_CHUNK N (41_framer.md). -/

namespace Sys2Proof.Machine

/-- The single padded final block of a chunk of n ≤ 55 bytes, with the length trailer (R142). -/
def paddedBlock (b : Block) (n : Nat) (len : BitVec 64) : Block :=
  b.take n ++ [0x80] ++ zeros (55 - n) ++ be64bytes len

/-- P1, the first block of the two-block split of a chunk of 56 to 63 bytes: no length field (R143). -/
def splitFirst (b : Block) (n : Nat) : Block := b.take n ++ [0x80] ++ zeros (63 - n)

/-- P2, the second block of the split: the length field alone (R143). -/
def splitSecond (len : BitVec 64) : Block := zeros 56 ++ be64bytes len

/-- H after a chunk of n bytes of block b, where len is LEN after the chunk was counted (R141, R142 to R144). -/
def digestChunk (h : Words8) (b : Block) (n : Nat) (len : BitVec 64) : Words8 :=
  if n = 64 then compress h b
  else if n ≤ 55 then compress h (paddedBlock b n len)
  else compress (compress h (splitFirst b n)) (splitSecond len)

/-- SHA_CHUNK N (R145): the length first (R141), then the compressions, then the seal (R146). MSG is unchanged (R148). -/
def execShaChunk (n : BitVec 7) (s : State) : Result :=
  let lo := lenLoAfter n.toNat s.lenLo
  let hi := lenHiAfter n.toNat s.lenLo s.lenHi
  runCommand (.shaChunk n) s
    { s with
      lenLo := lo
      lenHi := hi
      h := digestChunk s.h (blockOf s.msg) n.toNat (pair64 hi lo)
      shaDone := sealedBy n.toNat s.shaDone }

end Sys2Proof.Machine
end

