-- ==== Sys2Proof/Machine/Keystream.lean ====
section
/-! DEFINITION. The Keystream Core: the ChaCha20 block function and the commands CHACHA_INIT and CHACHA_BLOCK
(42_keystream_core.md). -/

namespace Sys2Proof.Machine

/-- ROTL(x, n) for 0 < n < 32 (R160). -/
def rotl (x : Word) (n : Nat) : Word := (x <<< n) ||| shr x (32 - n)

/-- The State Matrix for a latched key and a counter, with the two nonce words as arguments (R162). -/
def stateMatrix (n0 n1 : Word) (k : Words8) (lo hi : Word) : Words16 :=
  #v[chachaConstants[0], chachaConstants[1], chachaConstants[2], chachaConstants[3],
     k[0], k[1], k[2], k[3], k[4], k[5], k[6], k[7], lo, hi, n0, n1]

/-- The quarter-round on positions a, b, c, d of the Working Block, its steps strictly in this order (R163). -/
def quarterRound (a b c d : Fin 16) (x : Words16) : Words16 :=
  let x := x.set a (x[a] + x[b])
  let x := x.set d (rotl (x[d] ^^^ x[a]) 16)
  let x := x.set c (x[c] + x[d])
  let x := x.set b (rotl (x[b] ^^^ x[c]) 12)
  let x := x.set a (x[a] + x[b])
  let x := x.set d (rotl (x[d] ^^^ x[a]) 8)
  let x := x.set c (x[c] + x[d])
  x.set b (rotl (x[b] ^^^ x[c]) 7)

/-- The column round (R164). -/
def columnRound (x : Words16) : Words16 :=
  quarterRound 3 7 11 15 (quarterRound 2 6 10 14 (quarterRound 1 5 9 13 (quarterRound 0 4 8 12 x)))

/-- The diagonal round (R165). -/
def diagonalRound (x : Words16) : Words16 :=
  quarterRound 3 4 9 14 (quarterRound 2 7 8 13 (quarterRound 1 6 11 12 (quarterRound 0 5 10 15 x)))

/-- The 20 rounds: ten times a column round and then a diagonal round (R166). -/
def twentyRounds (x : Words16) : Words16 := Nat.repeat (fun y => diagonalRound (columnRound y)) 10 x

/-- The block function for given nonce words: 20 rounds of the State Matrix, then the feed-forward (R162 to R167). -/
def chachaBlockWith (n0 n1 : Word) (k : Words8) (lo hi : Word) : Words16 :=
  let m := stateMatrix n0 n1 k lo hi
  let x := twentyRounds m
  Vector.ofFn fun i : Fin 16 => x[i] + m[i]

/-- ChaChaBlock(k, {hi:lo}) of this CORE, with its parameters NONCE_C0 and NONCE_C1 (R168). -/
def chachaBlock (k : Words8) (lo hi : Word) : Words16 :=
  chachaBlockWith Config.nonceC0 Config.nonceC1 k lo hi

/-- CHACHA_INIT (R170). -/
def execChachaInit (s : State) : Result :=
  runCommand .chachaInit s { s with smk := s.key, ctrLo := 0, ctrHi := 0, streamDone := false }

/-- CHACHA_BLOCK (R171): KS only; the counter does not advance. -/
def execChachaBlock (s : State) : Result :=
  runCommand .chachaBlock s { s with ks := chachaBlock s.smk s.ctrLo s.ctrHi }

end Sys2Proof.Machine
end

