-- ==== Sys2Proof/Machine/Stream.lean ====
section
/-! DEFINITION. The Stream Cipher Driver: CHACHA_XOR N (43_stream_driver.md). -/

namespace Sys2Proof.Machine

/-- DATA after the XOR of its bytes 0 to n-1 with the keystream bytes of the block; bytes n to 63 stay (R190, R193). -/
def xorBytes (n : Nat) (d out : Words16) : Words16 :=
  bufferOf fun j => if j < n then byteAt d j ^^^ byteAt out j else byteAt d j

/-- CHACHA_XOR N (R193): KS always takes all 16 words, the counter advances by one (R191, R192), and a short chunk
seals the stream (R194). -/
def execChachaXor (n : BitVec 7) (s : State) : Result :=
  let out := chachaBlock s.smk s.ctrLo s.ctrHi
  runCommand (.chachaXor n) s
    { s with
      ks := out
      data := xorBytes n.toNat s.data out
      ctrLo := ctrLoAfter s.ctrLo
      ctrHi := ctrHiAfter s.ctrLo s.ctrHi
      streamDone := sealedBy n.toNat s.streamDone }

end Sys2Proof.Machine
end

