-- ==== Sys2Proof/Machine/Dispatch.lean ====
section
/-! DEFINITION. One arm per command of the opcode table (30_encoding.md R93): `execute(d)` of 60_exceptions.md R226. -/

namespace Sys2Proof.Machine

def exec (i : Instr) (s : State) : Host.Outcome State Fault Refusal :=
  match i with
  | .nop => Sys2Proof.Machine.execNop s
  | .shaInit => Sys2Proof.Machine.execShaInit s
  | .shaCompress => Sys2Proof.Machine.execShaCompress s
  | .shaChunk n => Sys2Proof.Machine.execShaChunk n s
  | .keyFromDigest => Sys2Proof.Machine.execKeyFromDigest s
  | .chachaInit => Sys2Proof.Machine.execChachaInit s
  | .chachaBlock => Sys2Proof.Machine.execChachaBlock s
  | .chachaXor n => Sys2Proof.Machine.execChachaXor n s

end Sys2Proof.Machine
end

