-- ==== Sys2Proof/Machine/Window.lean ====
section
/-! DEFINITION. The register window (20_memory.md): issuing a command, MemWrite, and performing one host event. -/

namespace Sys2Proof.Machine

/-- A CMD write with word v, in the order of 60_exceptions.md R226: ignored while ERR = 1 without decoding (R228),
then the two encoding errors, then the command with its own checks. -/
def issue (v : Word) (s : State) : Result :=
  if s.err then .next s
  else match decode v with
    | .illegalCmd => .next (raiseError .illegalCmd v s)
    | .badLength => .next (raiseError .badLength v s)
    | .cmd i => exec i s

/-- A legal MemWrite of v, by the register's class (20_memory.md R66): RW registers take all 32 bits, STATUS acts on
bit 3 alone (60_exceptions.md R229), CMD issues v, and the others ignore the write. -/
def writeReg (r : Reg) (v : Word) (s : State) : Result :=
  match r with
  | .cmd => issue v s
  | .status => .next (if v.getLsbD 3 then clearError s else s)
  | .h i => .next { s with h := s.h.set i v }
  | .lenLo => .next { s with lenLo := v }
  | .lenHi => .next { s with lenHi := v }
  | .msg i => .next { s with msg := s.msg.set i v }
  | .key i => .next { s with key := s.key.set i v }
  | .ctrLo => .next { s with ctrLo := v }
  | .ctrHi => .next { s with ctrHi := v }
  | .data i => .next { s with data := s.data.set i v }
  | .id => .next s
  | .errcmd => .next s
  | .nonce0 => .next s
  | .nonce1 => .next s
  | .ks _ => .next s
  | .reserved => .next s

/-- Perform one event. An access outside the window is not decoded (R61); while BUSY = 1 only a 4-byte read of STATUS
has a meaning (R76); a wrong width or a misaligned address changes no CORE state, gets the bus's error indication, and
a read so refused returns 0 (R62 to R64); otherwise R65 and R66. Reset is R250. -/
def perform (e : HostEvent) (s : State) : Result :=
  match e with
  | .memRead off n =>
    if Config.windowSize ≤ off then .fault .outsideWindow
    else if s.busy ∧ ¬(off = 0x008 ∧ n = 4) then .refused .accessWhileBusy
    else if isBusError off n then .next (respond (.readBusError 0) s)
    else .next (respond (.readData (readReg (regAt off) s)) s)
  | .memWrite off n v =>
    if Config.windowSize ≤ off then .fault .outsideWindow
    else if s.busy then .refused .accessWhileBusy
    else if isBusError off n then .next (respond .writeBusError s)
    else writeReg (regAt off) v (respond .writeDone s)
  | .reset => .next (resetEvent s)

/-- Perform events one after another, each whole before the next (20_memory.md R73), stopping at the first fault or
refusal. -/
def performAll : List HostEvent → State → Result
  | [], s => .next s
  | e :: es, s =>
    match perform e s with
    | .next t => performAll es t
    | .fault r => .fault r
    | .refused r => .refused r

end Sys2Proof.Machine
end

