-- ==== Sys2Proof/Machine/Step.lean ====
section
/-! DEFINITION. One step of the machine: the CORE performs the oldest event the host has issued (20_memory.md R73), a
command whole (00_scope.md R10); with none to perform it is idle (70_reset_and_hazards.md R251). The CORE fetches
nothing: a command word is the data of a CMD write (R41, R74, R90). -/

namespace Sys2Proof.Machine

/-- The host's next event is performed; an idle CORE stays as it is (log entry 2). -/
def step (s : State) : Host.Outcome State Fault Refusal :=
  match s.pending with
  | [] => .next s
  | e :: rest => Sys2Proof.Machine.perform e (s.withPending rest)

/-- The host's very next event is the CMD write of word w, and the engine is free to take it (BUSY = 0, R76). This
stands for the host issuing the command (log entry 4). -/
def State.withFetchWord (s : State) (nbits w : Nat) : State :=
  { s with
    busy := false
    pending := .memWrite 0x004 4 (BitVec.ofNat 32 (w % 2 ^ nbits)) :: s.pending }

end Sys2Proof.Machine
end

