-- ==== Sys2Proof/Machine/Assembly.lean ====
section
/-! DEFINITION. The spec's host assembly (30_encoding.md R98, R99) as the events it stands for, and the host's
streaming duty (43_stream_driver.md R197). -/

namespace Sys2Proof.Machine

/-- `wr off, v` (R98). -/
def wr (off : Nat) (v : Word) : HostEvent := .memWrite off 4 v

/-- `rd off` (R98). -/
def rd (off : Nat) : HostEvent := .memRead off 4

/-- `cmd MNEMONIC [N]` is `wr 0x004, encoding` (R98). -/
def cmd (i : Instr) : HostEvent := wr 0x004 (encode i)

/-- `poll`: in the reference model, one read of STATUS (R99). -/
def poll : HostEvent := rd (offsetOf .status)

/-- `clrerr` (R99). -/
def clrerr : HostEvent := wr (offsetOf .status) 0x00000008

/-- Word k of a byte string, little-endian, with the missing bytes as 0 (R99). -/
def wordOfBytes (b : List Byte) (k : Nat) : Word :=
  le32 (b.getD (4 * k) 0) (b.getD (4 * k + 1) 0) (b.getD (4 * k + 2) 0) (b.getD (4 * k + 3) 0)

/-- `ldbuf` of a byte string into the buffer that starts at an offset: ceil(n/4) word writes (R99). -/
def ldbuf (base : Nat) (b : List Byte) : List HostEvent :=
  (List.range ((b.length + 3) / 4)).map fun k => wr (base + 4 * k) (wordOfBytes b k)

/-- `ldbuf MSG` (R99). -/
def ldMsg (b : List Byte) : List HostEvent := ldbuf (offsetOf (.msg 0)) b

/-- `ldbuf DATA` (R99). -/
def ldData (b : List Byte) : List HostEvent := ldbuf (offsetOf (.data 0)) b

/-- Bytes 64k to 64k+63 of a string, or as many of them as there are (41_framer.md R147). -/
def piece (b : List Byte) (k : Nat) : List Byte := (b.drop (64 * k)).take 64

/-- `hash`: SHA_INIT, each full 64-byte piece as SHA_CHUNK 64, then the rest of 0 to 63 bytes as the final chunk
(R99, 41_framer.md R147). -/
def hashProgram (b : List Byte) : List HostEvent :=
  cmd .shaInit ::
    ((List.range (b.length / 64)).flatMap fun k => ldMsg (piece b k) ++ [cmd (.shaChunk 64)]) ++
    (ldMsg (piece b (b.length / 64)) ++ [cmd (.shaChunk (BitVec.ofNat 7 (b.length % 64)))])

/-- `setkey`: hash the password bytes, KEY_FROM_DIGEST, CHACHA_INIT (R99, 44_control.md R212). -/
def setkeyProgram (password : List Byte) : List HostEvent :=
  hashProgram password ++ [cmd .keyFromDigest, cmd .chachaInit]

/-- The pieces of a stream: ceil(L/64) chunks of 64 bytes, the last possibly shorter (43_stream_driver.md R197). -/
def pieces (b : List Byte) : List (List Byte) := (List.range ((b.length + 63) / 64)).map (piece b)

/-- One chunk of a stream: its bytes to DATA, then CHACHA_XOR with its length (R197). -/
def xorChunk (p : List Byte) : List HostEvent :=
  ldData p ++ [cmd (.chachaXor (BitVec.ofNat 7 p.length))]

end Sys2Proof.Machine
end

