-- ==== Sys2Proof/Safety.lean ====
section
/-! DEFINITION. The terms the claims use: the invariant of the machine, the events that change a flag or the latched
key, the reference SHA-256 of a byte string, and a cipher stream as the host runs it. -/

namespace Sys2Proof.Machine

/-- The error record says why ERR is set: with ERR = 0 it is clear (10_state.md R23, R29); with ERR = 1, ERRCMD is a
word that raises the recorded code (60_exceptions.md R221), and a seal error's flag is still set, since no later command
runs (R228, R230). -/
def State.errorRecordOk (s : State) : Prop :=
  if s.err then
    match s.errCode with
    | .none => False
    | .illegalCmd => decode s.errCmd = .illegalCmd
    | .badLength => decode s.errCmd = .badLength
    | .shaSealed => s.shaDone = true ∧ ∃ n, decode s.errCmd = .cmd (.shaChunk n)
    | .streamSealed => s.streamDone = true ∧ ∃ n, decode s.errCmd = .cmd (.chachaXor n)
  else s.errCode = .none ∧ s.errCmd = 0

/-- The invariant: commands are atomic, so BUSY = 0 between steps (10_state.md R24), and the error record is right. -/
def State.Inv (s : State) : Prop := s.busy = false ∧ s.errorRecordOk

/-- The event issues the command word v: a 4-byte write at offset 0x004 (10_state.md R22). -/
def HostEvent.issues (e : HostEvent) (v : Word) : Prop := e = .memWrite 0x004 4 v

/-- The engine takes commands: no command is running and no error is pending. -/
def State.ready (s : State) : Prop := s.busy = false ∧ s.err = false

/-- The state after an access was taken from the queue and answered. -/
def State.answered (s : State) (rest : List HostEvent) (r : Response) : State :=
  { s with pending := rest, responses := r :: s.responses }

/-- The host's next event is a 4-byte read at the offset, and the step answers it with v and changes nothing else. -/
def State.readsAs (s : State) (off : Nat) (v : Word) : Prop :=
  ∀ rest, step (s.withPending (.memRead off 4 :: rest)) = .next (s.answered rest (.readData v))

/-- The host's next event is a 4-byte write of v at the offset, and the step answers it and leaves the state t. -/
def State.writesTo (s : State) (off : Nat) (v : Word) (t : State) : Prop :=
  ∀ rest, step (s.withPending (.memWrite off 4 v :: rest)) = .next (t.answered rest .writeDone)

/-- The registers a command writes when it meets no error, by its rule: STATUS stands for the DONE flag it sets or
clears (40_digest_core.md R125, R126; 41_framer.md R145; 42_keystream_core.md R170, R171; 43_stream_driver.md R193;
44_control.md R210, R211). -/
def destinations (i : Instr) (r : Reg) : Prop :=
  match i with
  | .nop => False
  | .shaInit => (∃ k, r = .h k) ∨ r = .lenLo ∨ r = .lenHi ∨ r = .status
  | .shaCompress => ∃ k, r = .h k
  | .shaChunk _ => (∃ k, r = .h k) ∨ r = .lenLo ∨ r = .lenHi ∨ r = .status
  | .keyFromDigest => ∃ k, r = .key k
  | .chachaInit => r = .ctrLo ∨ r = .ctrHi ∨ r = .status
  | .chachaBlock => ∃ k, r = .ks k
  | .chachaXor _ => (∃ k, r = .ks k) ∨ (∃ k, r = .data k) ∨ r = .ctrLo ∨ r = .ctrHi ∨ r = .status

/-- An event whose offset is inside the window, or reset. -/
def HostEvent.inWindow : HostEvent → Prop
  | .memRead off _ => off < Config.windowSize
  | .memWrite off _ _ => off < Config.windowSize
  | .reset => True

/-- A register the host writes as a whole (RW in 20_memory.md R61). -/
def Reg.writable : Reg → Bool
  | .h _ => true
  | .lenLo => true
  | .lenHi => true
  | .msg _ => true
  | .key _ => true
  | .ctrLo => true
  | .ctrHi => true
  | .data _ => true
  | .id => false
  | .cmd => false
  | .status => false
  | .errcmd => false
  | .nonce0 => false
  | .nonce1 => false
  | .ks _ => false
  | .reserved => false

/-- The padded message of SHA-256: the bytes, 0x80, zero bytes up to 56 modulo 64, and the bit length in 8 big-endian
bytes. -/
def sha256Padded (b : List Byte) : List Byte :=
  b ++ [0x80] ++ zeros ((119 - b.length % 64) % 64) ++ be64bytes (BitVec.ofNat 64 (8 * b.length))

/-- SHA-256 of a whole byte string at once: the compression function over the 64-byte blocks of the padded message,
from the initial hash value (40_digest_core.md R118, R123; log entry 15). -/
def sha256 (b : List Byte) : Words8 := (pieces (sha256Padded b)).foldl compress initialHash

/-- Run the pieces of a stream as the host does, reading after each chunk its result bytes from DATA
(43_stream_driver.md R197): the last state and the output bytes. -/
def streamPieces : List (List Byte) → State → Option (State × List Byte)
  | [], s => some (s, [])
  | p :: ps, s =>
    match performAll (xorChunk p) s with
    | .next t => (streamPieces ps t).map fun r => (r.1, (blockOf t.data).take p.length ++ r.2)
    | .fault _ => none
    | .refused _ => none

/-- A whole cipher stream under the KEY register: CHACHA_INIT once, then the pieces (R197). -/
def cipherStream (b : List Byte) (s : State) : Option (State × List Byte) :=
  match perform (cmd .chachaInit) s with
  | .next t => streamPieces (pieces b) t
  | .fault _ => none
  | .refused _ => none

/-- The first 64 primes, by trial division, from 2 to 311. -/
def firstPrimes : List Nat :=
  (List.range 312).filter fun n => decide (1 < n ∧ ∀ d, d < n → 1 < d → n % d ≠ 0)

/-- One row of the opcode table: the command word with N = 0, and the bits that are fixed (spec/opcode_table.json). -/
structure OpcodeRow where
  word : Word
  mask : Word
  deriving DecidableEq, Repr

/-- The match and mask columns of spec/opcode_table.json (30_encoding.md R93). -/
def opcodeTable : List OpcodeRow :=
  [⟨0x00000000, 0xFFFFFFFF⟩, ⟨0x00000001, 0xFFFFFFFF⟩, ⟨0x00000002, 0xFFFFFFFF⟩, ⟨0x00000003, 0xFFFF80FF⟩,
   ⟨0x00000004, 0xFFFFFFFF⟩, ⟨0x00000005, 0xFFFFFFFF⟩, ⟨0x00000006, 0xFFFFFFFF⟩, ⟨0x00000007, 0xFFFF80FF⟩]

/-- The commands of a hashing session (70_reset_and_hazards.md R254). -/
def isHashCommand : Instr → Bool
  | .shaInit => true
  | .shaCompress => true
  | .shaChunk _ => true
  | .nop => false
  | .keyFromDigest => false
  | .chachaInit => false
  | .chachaBlock => false
  | .chachaXor _ => false

/-- The commands of a cipher stream (R254). -/
def isCipherCommand : Instr → Bool
  | .chachaInit => true
  | .chachaBlock => true
  | .chachaXor _ => true
  | .nop => false
  | .shaInit => false
  | .shaCompress => false
  | .shaChunk _ => false
  | .keyFromDigest => false

end Sys2Proof.Machine
end

