-- ==== Sys2Proof/Certificates/Slice0/Obligations.lean ====
section
/-! DEFINITION. The statements for the provers, in the order of OBLIGATIONS.json: encoding, the step, errors, the
window, reset, the invariant and the whole-machine rules, the commands, the arithmetic, and the sessions. -/

open Sys2Proof Sys2Proof.Machine

-- ---------------------------------------------------------------- encoding

/-- R93, R96: decoding the word of a legal command gives that command, with its N. -/
def Obligations.DecodeOfEncodeIsTheCommand : Prop :=
  ∀ i : Instr, i.wellFormed = true → decode (encode i) = .cmd i

/-- R91, R94, R96: a word that decodes to a command is that command's own encoding, bit for bit, and legal. -/
def Obligations.DecodedWordIsTheEncoding : Prop :=
  ∀ (v : Word) (i : Instr), decode v = .cmd i → i.wellFormed = true ∧ encode i = v

/-- R95: the illegal words and their errors, by RES, N and OPC taken as numbers. -/
def Obligations.IllegalWordsAreExactlyTheListed : Prop :=
  ∀ v : Word,
    let res := v.toNat / 2 ^ 15
    let n := v.toNat / 2 ^ 8 % 2 ^ 7
    let opc := v.toNat % 2 ^ 8
    (decode v = .illegalCmd ↔
      res ≠ 0 ∨ 0x08 ≤ opc ∨ (opc ∈ [0x00, 0x01, 0x02, 0x04, 0x05, 0x06] ∧ n ≠ 0)) ∧
    (decode v = .badLength ↔
      res = 0 ∧ ((opc = 0x03 ∧ 64 < n) ∨ (opc = 0x07 ∧ (n = 0 ∨ 64 < n))))

/-- R93 and spec/opcode_table.json: a word is not ILLEGAL_CMD exactly if it matches a row, and no word matches two. -/
def Obligations.DecodeAgreesWithOpcodeTable : Prop :=
  ∀ v : Word,
    (decode v ≠ .illegalCmd ↔ ∃ row ∈ opcodeTable, v &&& row.mask = row.word) ∧
    (∀ r ∈ opcodeTable, ∀ q ∈ opcodeTable, v &&& r.mask = r.word → v &&& q.mask = q.word → r = q)

/-- R93: one word per command and the six "useful encodings" of the rule, decoded. A sanity statement. -/
def Obligations.UsefulEncodingsDecode : Prop :=
  decode 0x00000000 = .cmd .nop ∧ decode 0x00000001 = .cmd .shaInit ∧ decode 0x00000002 = .cmd .shaCompress ∧
  decode 0x00004003 = .cmd (.shaChunk 64) ∧ decode 0x00000003 = .cmd (.shaChunk 0) ∧
  decode 0x00000303 = .cmd (.shaChunk 3) ∧ decode 0x00003803 = .cmd (.shaChunk 56) ∧ decode 0x00000004 = .cmd .keyFromDigest ∧
  decode 0x00000005 = .cmd .chachaInit ∧ decode 0x00000006 = .cmd .chachaBlock ∧
  decode 0x00004007 = .cmd (.chachaXor 64) ∧ decode 0x00000607 = .cmd (.chachaXor 6)

-- ---------------------------------------------------------------- the step and the errors

/-- R226, R10: a CMD write whose word decodes to a command runs that command as one step, with the write taken from
the host's queue and answered. It holds with ERR = 1 too: the command is then ignored (R228). -/
def Obligations.StepRunsTheDecodedCommand : Prop :=
  ∀ (s : State) (v : Word) (i : Instr) (rest : List HostEvent),
    s.busy = false → s.pending = .memWrite 0x004 4 v :: rest → decode v = .cmd i →
    step s = exec i (s.answered rest .writeDone)

/-- R226, R227: a CMD write in the order of the checks: ignored with ERR = 1; else the first failing check enters its
error and nothing else changes; else the command runs. -/
def Obligations.CmdWriteChecksInOrder : Prop :=
  ∀ (s : State) (v : Word) (rest : List HostEvent), s.busy = false → s.pending = .memWrite 0x004 4 v :: rest →
    let entered := fun code => step s =
      .next { s.answered rest .writeDone with err := true, errCode := code, errCmd := v }
    (s.err = true → step s = .next (s.answered rest .writeDone)) ∧
    (s.err = false → decode v = .illegalCmd → entered .illegalCmd) ∧
    (s.err = false → decode v = .badLength → entered .badLength) ∧
    (∀ n, s.err = false → decode v = .cmd (.shaChunk n) → s.shaDone = true → entered .shaSealed) ∧
    (∀ n, s.err = false → decode v = .cmd (.chachaXor n) → s.streamDone = true → entered .streamSealed) ∧
    (∀ i, s.err = false → decode v = .cmd i → (∀ n, i = .shaChunk n → s.shaDone = false) →
      (∀ n, i = .chachaXor n → s.streamDone = false) →
      ∃ t, step s = .next t ∧ exec i (s.answered rest .writeDone) = .next t ∧ t.err = false)

/-- R228: with ERR = 1 a CMD write does nothing at all, and the other accesses are performed as usual. -/
def Obligations.CommandsAreIgnoredWhileError : Prop :=
  ∀ s : State, s.busy = false → s.err = true →
    (∀ v, s.writesTo 0x004 v s) ∧
    (∀ r, s.readsAs (offsetOf r) (readReg r s)) ∧
    (∀ r v, r.writable = true → ∃ t : State,
      s.writesTo (offsetOf r) v t ∧ readReg r t = v ∧ t.responses = s.responses ∧ t.err = true)

/-- R228, command by command: with ERR = 1 every command leaves the state as it is. -/
def Obligations.EveryCommandIsIgnoredWhileError : Prop :=
  ∀ (i : Instr) (s : State), s.err = true → exec i s = .next s

/-- R229: writing 1 to bit 3 of STATUS clears ERR, ERRCODE and ERRCMD and nothing else; writing 0 does nothing. -/
def Obligations.StatusWriteClearsTheError : Prop :=
  ∀ (s : State) (v : Word), s.busy = false →
    (v.getLsbD 3 = true → s.writesTo 0x008 v { s with err := false, errCode := .none, errCmd := 0 }) ∧
    (v.getLsbD 3 = false → s.writesTo 0x008 v s)

/-- R230: the first error is kept: a step from ERR = 1 keeps ERR, the code and the word, unless it is the clear or a
reset, and both of these clear ERR. -/
def Obligations.FirstErrorIsKept : Prop :=
  ∀ (s t : State) (e : HostEvent) (rest : List HostEvent),
    s.err = true → s.pending = e :: rest → step s = .next t →
    (t.err = true ∧ t.errCode = s.errCode ∧ t.errCmd = s.errCmd) ∨
    (t.err = false ∧ (e = .reset ∨ ∃ v : Word, v.getLsbD 3 = true ∧ e = .memWrite 0x008 4 v))

/-- R223, R224, R226, R227: a legal SHA_CHUNK while SHA_DONE = 1 is SHA_SEALED, and one with N above 64 is BAD_LENGTH
even if sealed. Each records the command word. The clause for N above 64 speaks of a meaning run on an N that no word
decodes to, which is the model's own reading (log entry 13, DEDUCED). -/
def Obligations.ShaChunkErrors : Prop :=
  ∀ (n : BitVec 7) (s : State), s.err = false →
    (64 < n.toNat → exec (.shaChunk n) s =
      .next { s with err := true, errCode := .badLength, errCmd := encode (.shaChunk n) }) ∧
    (n.toNat ≤ 64 → s.shaDone = true → exec (.shaChunk n) s =
      .next { s with err := true, errCode := .shaSealed, errCmd := encode (.shaChunk n) })

/-- R223, R225, R226, R227: a legal CHACHA_XOR while STREAM_DONE = 1 is STREAM_SEALED, and one with N = 0 or above 64
is BAD_LENGTH even if sealed. The clause for N = 0 or above 64 speaks of a meaning run on an N that no word decodes to,
which is the model's own reading (log entry 13, DEDUCED). -/
def Obligations.ChachaXorErrors : Prop :=
  ∀ (n : BitVec 7) (s : State), s.err = false →
    ((n.toNat = 0 ∨ 64 < n.toNat) → exec (.chachaXor n) s =
      .next { s with err := true, errCode := .badLength, errCmd := encode (.chachaXor n) }) ∧
    (1 ≤ n.toNat → n.toNat ≤ 64 → s.streamDone = true → exec (.chachaXor n) s =
      .next { s with err := true, errCode := .streamSealed, errCmd := encode (.chachaXor n) })

/-- R123, R168, R220: no command stops the machine, on any operands in any state. -/
def Obligations.EveryCommandAnswersANextState : Prop :=
  ∀ (i : Instr) (s : State), ∃ t, exec i s = .next t

-- ---------------------------------------------------------------- the window

/-- R61, R65: what a read of each offset of the window returns; no read changes anything. -/
def Obligations.ReadsReturnTheMappedRegister : Prop :=
  ∀ s : State, s.busy = false →
    s.readsAs 0x000 0x53430007 ∧ s.readsAs 0x004 0 ∧
    s.readsAs 0x008 (BitVec.ofNat 32 (s.errCode.bits.toNat * 16 + s.err.toNat * 8 + s.streamDone.toNat * 4 +
      s.shaDone.toNat * 2)) ∧
    s.readsAs 0x00C s.errCmd ∧
    (∀ i : Fin 8, s.readsAs (0x010 + 4 * i) s.h[i]) ∧
    s.readsAs 0x030 s.lenLo ∧ s.readsAs 0x034 s.lenHi ∧ s.readsAs 0x038 0 ∧ s.readsAs 0x03C 0 ∧
    (∀ i : Fin 16, s.readsAs (0x040 + 4 * i) s.msg[i]) ∧
    (∀ i : Fin 8, s.readsAs (0x080 + 4 * i) s.key[i]) ∧
    s.readsAs 0x0A0 s.ctrLo ∧ s.readsAs 0x0A4 s.ctrHi ∧
    s.readsAs 0x0A8 Config.nonceC0 ∧ s.readsAs 0x0AC Config.nonceC1 ∧
    (∀ i : Fin 4, s.readsAs (0x0B0 + 4 * i) 0) ∧
    (∀ i : Fin 16, s.readsAs (0x0C0 + 4 * i) s.data[i]) ∧
    (∀ i : Fin 16, s.readsAs (0x100 + 4 * i) s.ks[i]) ∧
    (∀ i : Fin 48, s.readsAs (0x140 + 4 * i) 0)

/-- R66: an RW register takes all 32 bits of v and every other register, SMK and the flags stay; RO and reserved
offsets ignore the write; STATUS acts on bit 3 alone; CMD issues v. -/
def Obligations.WritesActByRegisterClass : Prop :=
  ∀ (s : State) (off : Nat) (v : Word), s.busy = false → off < 0x200 → off % 4 = 0 →
    (off ≠ 0x004 → off ≠ 0x008 → ∃ t : State, s.writesTo off v t ∧ t.smk = s.smk ∧ t.responses = s.responses ∧
      (∀ r, r ≠ regAt off → readReg r t = readReg r s) ∧
      (∀ off', off' < 0x200 → off' % 4 = 0 → off' ≠ off → readReg (regAt off') t = readReg (regAt off') s) ∧
      ((regAt off).writable = true → readReg (regAt off) t = v) ∧
      ((regAt off).writable = false → t = s)) ∧
    (off = 0x008 →
      s.writesTo off v (if v.getLsbD 3 then { s with err := false, errCode := .none, errCmd := 0 } else s)) ∧
    (off = 0x004 → ∀ rest, step (s.withPending (.memWrite off 4 v :: rest)) = issue v (s.answered rest .writeDone))

/-- R62, R63, R64: a wrong width or a misaligned address changes no CORE state and issues no command; the read
returns 0 with the error indication. That a bus error is a next state with a recorded response, so that the machine goes
on, is the model's reading (log entry 5, DEDUCED), and so are the 32 data bits of a write of another width (log entry 6,
DESIGN CHOICE). -/
def Obligations.BusErrorsChangeNothing : Prop :=
  ∀ (s : State) (off n : Nat) (v : Word) (rest : List HostEvent),
    s.busy = false → off < 0x200 → (n ≠ 4 ∨ off % 4 ≠ 0) →
    step (s.withPending (.memRead off n :: rest)) = .next (s.answered rest (.readBusError 0)) ∧
    step (s.withPending (.memWrite off n v :: rest)) = .next (s.answered rest .writeBusError)

/-- R42, R61: the map has no aliases: every named register has one offset in the window and every offset one register;
the reserved words are exactly the three ranges. -/
def Obligations.RegisterMapHasNoAliases : Prop :=
  (∀ r : Reg, offsetOf r < 0x200 ∧ offsetOf r % 4 = 0 ∧ regAt (offsetOf r) = r) ∧
  (∀ off, off < 0x200 → off % 4 = 0 →
    (regAt off = .reserved ↔ (0x038 ≤ off ∧ off ≤ 0x03C) ∨ (0x0B0 ≤ off ∧ off ≤ 0x0BC) ∨ 0x140 ≤ off) ∧
    (regAt off ≠ .reserved → offsetOf (regAt off) = off))

/-- R60, R61: the CORE decodes the byte addresses BASE to BASE + 0x1FF and no others. That a platform address is a
natural number without a width, so that BASE + 0x1FF never wraps, is the model's choice (log entry 8, DESIGN CHOICE,
unsafe for a claim about a platform address). -/
def Obligations.WindowStandsAtBase : Prop :=
  (∀ off, off < 0x200 → busOffset (Config.base + off) = some off) ∧
  (∀ addr, (addr < Config.base ∨ Config.base + 0x200 ≤ addr) → busOffset addr = none)

/-- R76: with BUSY = 1 only a 4-byte read of STATUS has a meaning. -/
def Obligations.AccessWhileBusyIsRefused : Prop :=
  ∀ (s : State) (off n : Nat) (v : Word) (rest : List HostEvent), s.busy = true → off < 0x200 →
    step (s.withPending (.memWrite off n v :: rest)) = .refused .accessWhileBusy ∧
    (¬(off = 0x008 ∧ n = 4) → step (s.withPending (.memRead off n :: rest)) = .refused .accessWhileBusy) ∧
    s.readsAs 0x008 (readReg .status s)

/-- R73, R72: the CORE performs the host's events one at a time in the order issued, each whole before the next. -/
def Obligations.EventsArePerformedInOrder : Prop :=
  ∀ (es : List HostEvent) (s : State),
    Host.Core.run Sys2Proof.core es.length (s.withPending es) = performAll es (s.withPending [])

/-- R220, R76, R61: with BUSY = 0 no event inside the window stops the machine. That the machine goes on after a
misaligned access or one of a wrong width is the model's reading (log entry 5, DEDUCED, unsafe for a claim that the host
goes on after a bus error). -/
def Obligations.EventsInTheWindowNeverStop : Prop :=
  ∀ (s : State) (e : HostEvent) (rest : List HostEvent), s.busy = false → s.pending = e :: rest → e.inWindow →
    ∃ t, step s = .next t ∧ t.busy = false

-- ---------------------------------------------------------------- reset

/-- R44: the reset values. The last two clauses, that they are the state SHA_INIT and CHACHA_INIT with KEY = 0
leave as it is, are R44's sentence marked derived, from its table and R125 and R170. -/
def Obligations.ResetValues : Prop :=
  State.reset.busy = false ∧ State.reset.shaDone = false ∧ State.reset.streamDone = false ∧
  State.reset.err = false ∧ State.reset.errCode.bits = 0 ∧ State.reset.errCmd = 0 ∧
  State.reset.h.toList = [0x6a09e667, 0xbb67ae85, 0x3c6ef372, 0xa54ff53a, 0x510e527f, 0x9b05688c, 0x1f83d9ab, 0x5be0cd19] ∧
  State.reset.lenLo = 0 ∧ State.reset.lenHi = 0 ∧ (∀ i : Fin 16, State.reset.msg[i] = 0) ∧
  (∀ i : Fin 8, State.reset.key[i] = 0 ∧ State.reset.smk[i] = 0) ∧
  State.reset.ctrLo = 0 ∧ State.reset.ctrHi = 0 ∧ (∀ i : Fin 16, State.reset.data[i] = 0 ∧ State.reset.ks[i] = 0) ∧
  State.reset.readsAs 0x000 0x53430007 ∧ State.reset.readsAs 0x004 0 ∧
  State.reset.readsAs 0x0A8 Config.nonceC0 ∧ State.reset.readsAs 0x0AC Config.nonceC1 ∧
  exec .shaInit State.reset = .next State.reset ∧ exec .chachaInit State.reset = .next State.reset

/-- R250: the reset input sets every piece of CORE state to its reset value, whatever it was, also with BUSY = 1 or
ERR = 1; the host's own queue and record stay (log entry 2). -/
def Obligations.ResetInputResetsEverything : Prop :=
  ∀ (s : State) (rest : List HostEvent),
    step (s.withPending (.reset :: rest)) =
      .next { State.reset with pending := rest, responses := s.responses }

/-- R44, R125, R170: SHA_INIT and then CHACHA_INIT with KEY = 0 give the reset state of the two units, and change
neither the buffers nor the error record. -/
def Obligations.InitsRestoreTheResetState : Prop :=
  ∀ s : State, s.err = false → s.key = State.reset.key → ∃ t, exec .shaInit s = .next t ∧
    exec .chachaInit t = .next { State.reset with
      busy := s.busy, errCode := s.errCode, errCmd := s.errCmd, msg := s.msg, data := s.data, ks := s.ks,
      pending := s.pending, responses := s.responses }

-- ---------------------------------------------------------------- the invariant and the whole-machine rules

/-- The invariant holds at reset. -/
def Obligations.InvariantAtReset : Prop := State.reset.Inv

/-- R24, R28, R29, R221, R228, R230: every step keeps the invariant: BUSY = 0, and the error record says which word
raised which code. -/
def Obligations.InvariantKeptByEveryStep : Prop :=
  ∀ s t : State, s.Inv → step s = .next t → t.Inv

/-- R23, R24, R28: under the invariant a read of STATUS shows BUSY = 0, a code of 0 exactly if ERR = 0 and never one
above 4, and 0 in bits 31:8. -/
def Obligations.StatusReadsAreLegal : Prop :=
  ∀ s : State, s.Inv → ∃ v : Word, s.readsAs 0x008 v ∧ v.getLsbD 0 = false ∧
    (v.toNat / 16 = 0 ↔ v.getLsbD 3 = false) ∧ v.toNat / 16 ≤ 4

/-- R23, R25, R146: SHA_DONE changes only by a legal short SHA_CHUNK, which sets it, or by SHA_INIT or reset, which
clear it; so once set it stays until one of these two. -/
def Obligations.ShaDoneChangesOnlyByItsCommands : Prop :=
  ∀ (s t : State) (e : HostEvent) (rest : List HostEvent), s.pending = e :: rest → step s = .next t →
    t.shaDone ≠ s.shaDone →
    (t.shaDone = true ∧ s.err = false ∧ ∃ n : BitVec 7, n.toNat < 64 ∧ e.issues (encode (.shaChunk n))) ∨
    (t.shaDone = false ∧ (e = .reset ∨ (s.err = false ∧ e.issues 0x00000001)))

/-- R23, R26, R194: STREAM_DONE changes only by a legal short CHACHA_XOR, which sets it, or by CHACHA_INIT or reset,
which clear it. -/
def Obligations.StreamDoneChangesOnlyByItsCommands : Prop :=
  ∀ (s t : State) (e : HostEvent) (rest : List HostEvent), s.pending = e :: rest → step s = .next t →
    t.streamDone ≠ s.streamDone →
    (t.streamDone = true ∧ s.err = false ∧
      ∃ n : BitVec 7, 1 ≤ n.toNat ∧ n.toNat < 64 ∧ e.issues (encode (.chachaXor n))) ∨
    (t.streamDone = false ∧ (e = .reset ∨ (s.err = false ∧ e.issues 0x00000005)))

/-- R34, R258: only CHACHA_INIT and reset write the latched key; CHACHA_INIT takes it from KEY. -/
def Obligations.LatchedKeyChangesOnlyAtChachaInit : Prop :=
  ∀ (s t : State) (e : HostEvent) (rest : List HostEvent), s.pending = e :: rest → step s = .next t →
    t.smk ≠ s.smk → e = .reset ∨ (s.err = false ∧ e.issues 0x00000005 ∧ t.smk = s.key)

/-- R38: only CHACHA_BLOCK, CHACHA_XOR and reset write KS, and the two commands write the block of the latched key and
the counter. -/
def Obligations.KeystreamBufferIsWrittenByItsCommandsOnly : Prop :=
  ∀ (s t : State) (e : HostEvent) (rest : List HostEvent), s.pending = e :: rest → step s = .next t →
    t.ks ≠ s.ks → e = .reset ∨
      (s.err = false ∧ t.ks = chachaBlock s.smk s.ctrLo s.ctrHi ∧
        (e.issues 0x00000006 ∨ ∃ n : BitVec 7, 1 ≤ n.toNat ∧ n.toNat ≤ 64 ∧ e.issues (encode (.chachaXor n))))

/-- R30 to R38, R125 to R211: the frame of every command: where it meets no error, every register of the window that
is not one of its destinations reads as before, and SMK stays unless it is CHACHA_INIT. -/
def Obligations.CommandsWriteOnlyTheirDestinations : Prop :=
  ∀ (i : Instr) (s t : State), exec i s = .next t → t.err = s.err →
    (∀ r : Reg, ¬ destinations i r → readReg r t = readReg r s) ∧
    (i ≠ .chachaInit → t.smk = s.smk) ∧ t.busy = s.busy ∧ t.pending = s.pending ∧ t.responses = s.responses

/-- R254: a command of a hashing session and one of a cipher stream, neither of which meets an error, give the same
state in either order. -/
def Obligations.HashAndCipherCommandsCommute : Prop :=
  ∀ (i j : Instr) (s : State), isHashCommand i = true → isCipherCommand j = true → s.err = false →
    i.wellFormed = true → j.wellFormed = true →
    (∀ n, i = .shaChunk n → s.shaDone = false) → (∀ n, j = .chachaXor n → s.streamDone = false) →
    ∃ t u v, exec i s = .next t ∧ exec j t = .next v ∧ exec j s = .next u ∧ exec i u = .next v

-- ---------------------------------------------------------------- the commands

/-- R210: NOP is the word 0, changes nothing, and with any other bit set above OPC is ILLEGAL_CMD. -/
def Obligations.NopDoesNothing : Prop :=
  decode 0x00000000 = .cmd .nop ∧ (∀ s : State, exec .nop s = .next s) ∧
  (∀ (s : State) (v : Word), s.err = false → v.toNat % 2 ^ 8 = 0x00 → v ≠ 0x00000000 →
    issue v s = .next { s with err := true, errCode := .illegalCmd, errCmd := v })

/-- R125: SHA_INIT. -/
def Obligations.ShaInitStartsASession : Prop :=
  decode 0x00000001 = .cmd .shaInit ∧
  (∀ (s : State) (v : Word), s.err = false → v.toNat % 2 ^ 8 = 0x01 → v ≠ 0x00000001 →
    issue v s = .next { s with err := true, errCode := .illegalCmd, errCmd := v }) ∧
  (∀ s : State, s.err = true → exec .shaInit s = .next s) ∧
  (∀ s : State, s.err = false → exec .shaInit s = .next { s with
    h := #v[0x6a09e667, 0xbb67ae85, 0x3c6ef372, 0xa54ff53a, 0x510e527f, 0x9b05688c, 0x1f83d9ab, 0x5be0cd19]
    lenLo := 0, lenHi := 0, shaDone := false })

/-- R126: SHA_COMPRESS, and the example of the rule. -/
def Obligations.ShaCompressCompressesMsgIntoH : Prop :=
  decode 0x00000002 = .cmd .shaCompress ∧
  (∀ (s : State) (v : Word), s.err = false → v.toNat % 2 ^ 8 = 0x02 → v ≠ 0x00000002 →
    issue v s = .next { s with err := true, errCode := .illegalCmd, errCmd := v }) ∧
  (∀ s : State, s.err = true → exec .shaCompress s = .next s) ∧
  (∀ s : State, s.err = false → exec .shaCompress s = .next { s with h := compress s.h (blockOf s.msg) }) ∧
  exec .shaCompress State.reset = .next { State.reset with
    h := #v[0xda5698be, 0x17b9b469, 0x62335799, 0x779fbeca, 0x8ce5d491, 0xc0d26243, 0xbafef9ea, 0x1837a9d8] }

/-- R140 to R146: a legal SHA_CHUNK N while SHA_DONE = 0: LEN grows by 8N modulo 2^64 before padding, H takes the full
block, the single padded block or the two-block split, the DONE flag is set exactly if N < 64, and nothing else
changes. -/
def Obligations.ShaChunkFeedsTheFramer : Prop :=
  ∀ (n : BitVec 7) (s : State), s.err = false → n.toNat ≤ 64 → s.shaDone = false →
    ∃ t : State, exec (.shaChunk n) s = .next t ∧
      t = { s with h := t.h, lenLo := t.lenLo, lenHi := t.lenHi, shaDone := decide (n.toNat < 64) } ∧
      (pair64 t.lenHi t.lenLo).toNat = ((pair64 s.lenHi s.lenLo).toNat + 8 * n.toNat) % 2 ^ 64 ∧
      (let b := blockOf s.msg
       let trailer := be64bytes (pair64 t.lenHi t.lenLo)
       (n.toNat = 64 → t.h = compress s.h b) ∧
       (n.toNat ≤ 55 →
         t.h = compress s.h (b.take n.toNat ++ [0x80] ++ List.replicate (55 - n.toNat) 0 ++ trailer)) ∧
       (56 ≤ n.toNat → n.toNat ≤ 63 →
         t.h = compress (compress s.h (b.take n.toNat ++ [0x80] ++ List.replicate (63 - n.toNat) 0))
           (List.replicate 56 0 ++ trailer)))

/-- R140: the length accumulator as the rule computes it, by halves, for every chunk that runs. -/
def Obligations.LengthAccumulatesByHalves : Prop :=
  ∀ (n : BitVec 7) (s : State), s.err = false → n.toNat ≤ 64 → s.shaDone = false →
    ∃ t : State, exec (.shaChunk n) s = .next t ∧
      t.lenLo.toNat = (s.lenLo.toNat + 8 * n.toNat) % 2 ^ 32 ∧
      t.lenHi.toNat = (s.lenHi.toNat + (s.lenLo.toNat + 8 * n.toNat) / 2 ^ 32) % 2 ^ 32

/-- R148: MSG is unchanged by a chunk, and its bytes from N on do not affect the result. -/
def Obligations.MessageBytesFromNOnAreIgnored : Prop :=
  ∀ (n : BitVec 7) (s : State), s.err = false → n.toNat ≤ 64 → s.shaDone = false →
    ∃ t : State, exec (.shaChunk n) s = .next t ∧ t.msg = s.msg ∧
      ∀ m : Words16, (∀ j, j < n.toNat → byteAt m j = byteAt s.msg j) →
        exec (.shaChunk n) { s with msg := m } = .next { t with msg := m }

/-- R211: KEY_FROM_DIGEST copies H word by word whatever SHA_DONE is, and changes nothing else. -/
def Obligations.KeyFromDigestCopiesTheDigest : Prop :=
  decode 0x00000004 = .cmd .keyFromDigest ∧
  (∀ (s : State) (v : Word), s.err = false → v.toNat % 2 ^ 8 = 0x04 → v ≠ 0x00000004 →
    issue v s = .next { s with err := true, errCode := .illegalCmd, errCmd := v }) ∧
  (∀ s : State, s.err = true → exec .keyFromDigest s = .next s) ∧
  (∀ s : State, s.err = false → ∃ t : State, exec .keyFromDigest s = .next t ∧
    t = { s with key := t.key } ∧ ∀ i : Fin 8, t.key[i] = s.h[i])

/-- R170: CHACHA_INIT. -/
def Obligations.ChachaInitLatchesTheKey : Prop :=
  decode 0x00000005 = .cmd .chachaInit ∧
  (∀ (s : State) (v : Word), s.err = false → v.toNat % 2 ^ 8 = 0x05 → v ≠ 0x00000005 →
    issue v s = .next { s with err := true, errCode := .illegalCmd, errCmd := v }) ∧
  (∀ s : State, s.err = true → exec .chachaInit s = .next s) ∧
  (∀ s : State, s.err = false →
    exec .chachaInit s = .next { s with smk := s.key, ctrLo := 0, ctrHi := 0, streamDone := false })

/-- R171: CHACHA_BLOCK; the block is that of the two OPEN parameters, and the rule's example is the value of the same
function where both are 0. -/
def Obligations.ChachaBlockWritesTheKeystream : Prop :=
  decode 0x00000006 = .cmd .chachaBlock ∧
  (∀ (s : State) (v : Word), s.err = false → v.toNat % 2 ^ 8 = 0x06 → v ≠ 0x00000006 →
    issue v s = .next { s with err := true, errCode := .illegalCmd, errCmd := v }) ∧
  (∀ s : State, s.err = true → exec .chachaBlock s = .next s) ∧
  (∀ s : State, s.err = false → exec .chachaBlock s =
    .next { s with ks := chachaBlockWith Config.nonceC0 Config.nonceC1 s.smk s.ctrLo s.ctrHi }) ∧
  (chachaBlockWith 0 0 (Vector.replicate 8 0) 0 0).toList.take 4 = [0xade0b876, 0x903df1a0, 0xe56a5d40, 0x28bd8653]

/-- R193, R194: a legal CHACHA_XOR N while STREAM_DONE = 0: KS takes the whole block, DATA bytes 0 to N-1 are XORed
with its bytes and the others stay, the counter grows by one modulo 2^64, the DONE flag is set exactly if N < 64, and
nothing else changes. -/
def Obligations.ChachaXorEncryptsAChunk : Prop :=
  ∀ (n : BitVec 7) (s : State), s.err = false → 1 ≤ n.toNat → n.toNat ≤ 64 → s.streamDone = false →
    ∃ t : State, exec (.chachaXor n) s = .next t ∧
      t = { s with ks := t.ks, data := t.data, ctrLo := t.ctrLo, ctrHi := t.ctrHi,
                   streamDone := decide (n.toNat < 64) } ∧
      t.ks = chachaBlock s.smk s.ctrLo s.ctrHi ∧
      (∀ j, j < n.toNat → byteAt t.data j = byteAt s.data j ^^^ byteAt t.ks j) ∧
      (∀ j, n.toNat ≤ j → j < 64 → byteAt t.data j = byteAt s.data j) ∧
      (pair64 t.ctrHi t.ctrLo).toNat = ((pair64 s.ctrHi s.ctrLo).toNat + 1) % 2 ^ 64

/-- R190, R67: a full chunk XORs whole words. -/
def Obligations.FullChunkXorsWholeWords : Prop :=
  ∀ s : State, s.err = false → s.streamDone = false →
    ∃ t : State, exec (.chachaXor 64) s = .next t ∧ ∀ i : Fin 16, t.data[i] = s.data[i] ^^^ t.ks[i]

/-- R191, R192: the counter by halves, with the wrap of {FFFFFFFF:FFFFFFFF} to {0:0} raising nothing. -/
def Obligations.CounterCarriesAndWraps : Prop :=
  ∀ (n : BitVec 7) (s : State), s.err = false → 1 ≤ n.toNat → n.toNat ≤ 64 → s.streamDone = false →
    ∃ t : State, exec (.chachaXor n) s = .next t ∧
      t.ctrLo.toNat = (s.ctrLo.toNat + 1) % 2 ^ 32 ∧
      t.ctrHi.toNat = (s.ctrHi.toNat + (s.ctrLo.toNat + 1) / 2 ^ 32) % 2 ^ 32 ∧
      (s.ctrHi = 0xFFFFFFFF → s.ctrLo = 0xFFFFFFFF → t.ctrHi = 0 ∧ t.ctrLo = 0) ∧
      t.err = false ∧ t.errCode = s.errCode ∧ t.shaDone = s.shaDone ∧ t.streamDone = decide (n.toNat < 64)

/-- R168, R34: the block CHACHA_BLOCK writes depends on the latched key and the counter alone; KEY, H, MSG and DATA
have no part in it. -/
def Obligations.KeystreamDependsOnKeyAndCounterOnly : Prop :=
  ∀ s r : State, s.err = false → r.err = false → s.smk = r.smk → s.ctrLo = r.ctrLo → s.ctrHi = r.ctrHi →
    ∃ t u : State, exec .chachaBlock s = .next t ∧ exec .chachaBlock r = .next u ∧ t.ks = u.ks

-- ---------------------------------------------------------------- the arithmetic

/-- R110, R160: the shift and the rotations as the rules compute them on numbers. -/
def Obligations.ShiftAndRotationsOnNumbers : Prop :=
  ∀ (x : Word) (n : Nat), 0 < n → n < 32 →
    (shr x n).toNat = x.toNat / 2 ^ n ∧
    (rotr x n).toNat = (x.toNat / 2 ^ n) ||| (x.toNat * 2 ^ (32 - n) % 2 ^ 32) ∧
    (rotl x n).toNat = (x.toNat * 2 ^ n % 2 ^ 32) ||| (x.toNat / 2 ^ (32 - n))

/-- R111 to R114: the four sigma functions bit by bit, bit i of a rotation right by n being bit i + n modulo 32, and
the rules' examples. -/
def Obligations.SigmaFunctionsBitByBit : Prop :=
  (∀ (x : Word) (i : Nat), i < 32 →
    let bit := fun k => x.getLsbD ((i + k) % 32)
    (smallSigma0 x).getLsbD i = ((bit 7 ^^ bit 18) ^^ x.getLsbD (i + 3)) ∧
    (smallSigma1 x).getLsbD i = ((bit 17 ^^ bit 19) ^^ x.getLsbD (i + 10)) ∧
    (bigSigma0 x).getLsbD i = ((bit 2 ^^ bit 13) ^^ bit 22) ∧
    (bigSigma1 x).getLsbD i = ((bit 6 ^^ bit 11) ^^ bit 25)) ∧
  smallSigma0 0x00000001 = 0x02004000 ∧ smallSigma1 0x00000001 = 0x0000a000 ∧
  bigSigma0 0x00000001 = 0x40080400 ∧ bigSigma1 0x00000001 = 0x04200080

/-- R115, R116: each bit of e chooses the bit of f or of g; each bit of Maj is the majority of the three; and the
rules' examples. -/
def Obligations.ChooseAndMajorityBitByBit : Prop :=
  (∀ (x y z : Word) (i : Nat), i < 32 →
    ((ch x y z).getLsbD i = if x.getLsbD i then y.getLsbD i else z.getLsbD i) ∧
    ((maj x y z).getLsbD i = true ↔ 2 ≤ (x.getLsbD i).toNat + (y.getLsbD i).toNat + (z.getLsbD i).toNat)) ∧
  ch 0xf0f0f0f0 0xffffffff 0x00000000 = 0xf0f0f0f0 ∧ maj 0xf0f0f0f0 0xcccccccc 0xaaaaaaaa = 0xe8e8e8e8

/-- R117, R118: K[t] and IV[i] are the first 32 bits of the fractional parts of the cube and square roots of the first
primes: floor(root * 2^32) modulo 2^32. -/
def Obligations.ConstantsAreRootsOfPrimes : Prop :=
  firstPrimes.length = 64 ∧
  (∀ t, t < 64 → ∃ c : Nat, c ^ 3 ≤ firstPrimes.getD t 0 * 2 ^ 96 ∧ firstPrimes.getD t 0 * 2 ^ 96 < (c + 1) ^ 3 ∧
    roundConstant t = BitVec.ofNat 32 c) ∧
  (∀ i : Fin 8, ∃ c : Nat, c ^ 2 ≤ firstPrimes.getD i 0 * 2 ^ 64 ∧ firstPrimes.getD i 0 * 2 ^ 64 < (c + 1) ^ 2 ∧
    initialHash[i] = BitVec.ofNat 32 c)

/-- R119, R120: the 64 schedule words of a block: the big-endian block words, then the recurrence. -/
def Obligations.ScheduleFollowsTheRecurrence : Prop :=
  ∀ b : Block,
    let w := fun t => (schedule b).getD t 0
    (schedule b).length = 64 ∧
    (∀ t, t < 16 → w t = be32 (b.getD (4 * t) 0) (b.getD (4 * t + 1) 0) (b.getD (4 * t + 2) 0) (b.getD (4 * t + 3) 0)) ∧
    (∀ t, 16 ≤ t → t < 64 → w t = w (t - 16) + smallSigma0 (w (t - 15)) + w (t - 7) + smallSigma1 (w (t - 2)))

/-- R121, R122, R113 to R116: Compress runs 64 rounds from (H[0], ..., H[7]), round t with K[t] and W[t] and the four
round functions written out, and adds the working registers into H. -/
def Obligations.CompressRunsTheRoundsAndFeedsForward : Prop :=
  ∀ (h : Words8) (b : Block), ∃ v : Nat → Working,
    v 0 = ⟨h[0], h[1], h[2], h[3], h[4], h[5], h[6], h[7]⟩ ∧
    (∀ t, t < 64 →
      let p := v t
      let t1 := p.h + (rotr p.e 6 ^^^ rotr p.e 11 ^^^ rotr p.e 25) + ((p.e &&& p.f) ^^^ (~~~p.e &&& p.g)) +
        roundConstant t + (schedule b).getD t 0
      let t2 := (rotr p.a 2 ^^^ rotr p.a 13 ^^^ rotr p.a 22) + ((p.a &&& p.b) ^^^ (p.a &&& p.c) ^^^ (p.b &&& p.c))
      v (t + 1) = ⟨t1 + t2, p.a, p.b, p.c, p.d + t1, p.e, p.f, p.g⟩) ∧
    (compress h b).toList = [h[0] + (v 64).a, h[1] + (v 64).b, h[2] + (v 64).c, h[3] + (v 64).d,
      h[4] + (v 64).e, h[5] + (v 64).f, h[6] + (v 64).g, h[7] + (v 64).h]

/-- R124, R67: BlockOf(MSG) is 64 bytes and its byte j is lane j & 3 of MSG[j >> 2]. The last clause, that block word t
is MSG[t] with the four bytes reversed, is R124's sentence marked derived, from R119 and R67. -/
def Obligations.BlockOfMsgHasLittleEndianLanes : Prop :=
  ∀ m : Words16, (blockOf m).length = 64 ∧
    (∀ (i : Fin 16) (k : Nat), k < 4 → (blockOf m).getD (4 * i + k) 0 = BitVec.ofNat 8 (m[i].toNat / 2 ^ (8 * k))) ∧
    (∀ (t : Fin 16) (k : Nat), k < 32 → (blockWord (blockOf m) t).getLsbD k = m[t].getLsbD (8 * (3 - k / 8) + k % 8))

/-- R163: the quarter-round on four distinct positions, step by step; the other twelve words stay. -/
def Obligations.QuarterRoundSteps : Prop :=
  ∀ (a b c d : Fin 16) (x : Words16), a ≠ b → a ≠ c → a ≠ d → b ≠ c → b ≠ d → c ≠ d →
    let a1 := x[a] + x[b]
    let d1 := rotl (x[d] ^^^ a1) 16
    let c1 := x[c] + d1
    let b1 := rotl (x[b] ^^^ c1) 12
    let a2 := a1 + b1
    let d2 := rotl (d1 ^^^ a2) 8
    let c2 := c1 + d2
    let b2 := rotl (b1 ^^^ c2) 7
    let y := quarterRound a b c d x
    y[a] = a2 ∧ y[b] = b2 ∧ y[c] = c2 ∧ y[d] = d2 ∧
    ∀ k : Fin 16, k ≠ a → k ≠ b → k ≠ c → k ≠ d → y[k] = x[k]

/-- R162, R164 to R168: the block of a key and a counter: the State Matrix, ten double rounds of a copy of it, and the
feed-forward. -/
def Obligations.BlockFunctionOfTheStateMatrix : Prop :=
  ∀ (k : Words8) (lo hi : Word), ∃ m x : Words16,
    m.toList = [0x61707865, 0x3320646e, 0x79622d32, 0x6b206574] ++ k.toList ++
      [lo, hi, Config.nonceC0, Config.nonceC1] ∧
    x = (fun y => quarterRound 3 4 9 14 (quarterRound 2 7 8 13 (quarterRound 1 6 11 12 (quarterRound 0 5 10 15
          (quarterRound 3 7 11 15 (quarterRound 2 6 10 14 (quarterRound 1 5 9 13 (quarterRound 0 4 8 12 y))))))))^[10] m ∧
    ∀ i : Fin 16, (chachaBlock k lo hi)[i] = x[i] + m[i]

-- ---------------------------------------------------------------- the sessions

/-- R149 (marked derived in the spec), R147: the host's hashing program over any byte string S, run through the
window, leaves H = SHA-256(S) computed at once over the padded message, LEN = 8|S| and SHA_DONE = 1. The reference
function sha256 is the model's own reading of a whole-message SHA-256 (log entry 15, DEDUCED). -/
def Obligations.HashProgramComputesSha256 : Prop :=
  ∀ (b : List Byte) (s : State), s.ready → 8 * b.length < 2 ^ 64 →
    ∃ t : State, performAll (hashProgram b) s = .next t ∧ t.h = sha256 b ∧
      (pair64 t.lenHi t.lenLo).toNat = 8 * b.length ∧ t.shaDone = true ∧ t.ready

/-- R212, R99: the password-to-key program latches the SHA-256 of the password bytes as the key and starts the
stream at counter 0. The reference function sha256 is the model's own reading of a whole-message SHA-256 (log entry 15,
DEDUCED). -/
def Obligations.SetkeyProgramLatchesThePasswordDigest : Prop :=
  ∀ (b : List Byte) (s : State), s.ready → 8 * b.length < 2 ^ 64 →
    ∃ t : State, performAll (setkeyProgram b) s = .next t ∧ t.key = sha256 b ∧ t.smk = sha256 b ∧
      t.ctrLo = 0 ∧ t.ctrHi = 0 ∧ t.streamDone = false ∧ t.ready

/-- R195, R196, R198: a whole stream of any length, run through the window, gives as many bytes as it takes, and the
same program under the same KEY, from any other state, gives the input back. -/
def Obligations.StreamDecryptsItself : Prop :=
  ∀ (b : List Byte) (s r : State), s.ready → r.ready → s.key = r.key →
    ∃ (t : State) (out : List Byte), cipherStream b s = some (t, out) ∧ out.length = b.length ∧
      ∃ u : State, cipherStream out r = some (u, b)
end

