-- ==== Sys2Proof/Laws/Bytes.lean ====
section
/-! SUPPORT. The byte lanes: a buffer is its 64 bytes and a word its four, and the framer's blocks have 64 bytes. -/

namespace Sys2Proof.Machine

theorem getLsbD_le32 (b0 b1 b2 b3 : Byte) (i : Nat) :
    (le32 b0 b1 b2 b3).getLsbD i =
      if i < 8 then b0.getLsbD i else if i < 16 then b1.getLsbD (i - 8)
      else if i < 24 then b2.getLsbD (i - 16) else b3.getLsbD (i - 24) := by
  have z : ∀ (b : Byte) (k : Nat), 8 ≤ k → b.getLsbD k = false := fun b k h => BitVec.getLsbD_of_ge b k h
  simp only [le32, BitVec.getLsbD_or, BitVec.getLsbD_shiftLeft, BitVec.getLsbD_setWidth]
  by_cases h0 : i < 8
  · have : i < 32 := by omega
    have : i < 16 := by omega
    have : i < 24 := by omega
    simp [*]
  · by_cases h1 : i < 16
    · have : i < 32 := by omega
      have : i < 24 := by omega
      have := z b0 i (by omega)
      have : i - 8 < 32 := by omega
      simp [*]
    · by_cases h2 : i < 24
      · have : i < 32 := by omega
        have := z b0 i (by omega)
        have := z b1 (i - 8) (by omega)
        have : i - 16 < 32 := by omega
        simp [*]
      · have := z b0 i (by omega)
        have := z b1 (i - 8) (by omega)
        have := z b2 (i - 16) (by omega)
        by_cases h3 : i < 32
        · have : i - 24 < 32 := by omega
          simp [*]
        · have := z b3 (i - 24) (by omega)
          simp [*]

theorem be32_eq_le32 (b0 b1 b2 b3 : Byte) : be32 b0 b1 b2 b3 = le32 b3 b2 b1 b0 := rfl

theorem getLsbD_byteLane (w : Word) (k i : Nat) (hi : i < 8) : (byteLane w k).getLsbD i = w.getLsbD (8 * k + i) := by
  simp [byteLane, hi]

/-- Lane k of a word made of four bytes. -/
theorem byteLane_le32 (b : Nat → Byte) (k : Nat) (hk : k < 4) : byteLane (le32 (b 0) (b 1) (b 2) (b 3)) k = b k := by
  apply BitVec.eq_of_getLsbD_eq
  intro i hi
  rw [getLsbD_byteLane _ _ _ hi, getLsbD_le32]
  rcases (by omega : k = 0 ∨ k = 1 ∨ k = 2 ∨ k = 3) with rfl | rfl | rfl | rfl
  · rw [if_pos (by omega)]; congr 1; omega
  · rw [if_neg (by omega), if_pos (by omega)]; congr 1; omega
  · rw [if_neg (by omega), if_neg (by omega), if_pos (by omega)]; congr 1; omega
  · rw [if_neg (by omega), if_neg (by omega), if_neg (by omega)]; congr 1; omega

/-- A word is its four lanes. -/
theorem le32_byteLane (w : Word) : le32 (byteLane w 0) (byteLane w 1) (byteLane w 2) (byteLane w 3) = w := by
  apply BitVec.eq_of_getLsbD_eq
  intro i hi
  rw [getLsbD_le32]
  split
  · rw [getLsbD_byteLane _ _ _ (by omega)]; congr 1; omega
  · split
    · rw [getLsbD_byteLane _ _ _ (by omega)]; congr 1; omega
    · split
      · rw [getLsbD_byteLane _ _ _ (by omega)]; congr 1; omega
      · rw [getLsbD_byteLane _ _ _ (by omega)]; congr 1; omega

theorem byteAt_of_lt (m : Words16) (j : Nat) (hj : j < 64) : byteAt m j = byteLane (m[j / 4]'(by omega)) (j % 4) := by
  have : j / 4 < 16 := by omega
  simp [byteAt, this]

theorem getElem_bufferOf (b : Nat → Byte) (i : Nat) (hi : i < 16) :
    (bufferOf b)[i] = le32 (b (4 * i)) (b (4 * i + 1)) (b (4 * i + 2)) (b (4 * i + 3)) := by
  unfold bufferOf
  rw [Vector.getElem_ofFn]

/-- The byte-indexed buffer has the bytes it was made of. -/
theorem byteAt_bufferOf (b : Nat → Byte) (j : Nat) (hj : j < 64) : byteAt (bufferOf b) j = b j := by
  have h := byteLane_le32 (fun k => b (4 * (j / 4) + k)) (j % 4) (by omega)
  have e : 4 * (j / 4) + j % 4 = j := by omega
  rw [byteAt_of_lt _ _ hj, getElem_bufferOf _ _ (by omega)]
  simp only [e, Nat.add_zero] at h
  exact h

/-- Byte 4i + k is lane k of word i. -/
theorem byteAt_lane (m : Words16) (i k : Nat) (hi : i < 16) (hk : k < 4) : byteAt m (4 * i + k) = byteLane m[i] k := by
  have d : (4 * i + k) / 4 = i := by omega
  have r : (4 * i + k) % 4 = k := by omega
  rw [byteAt_of_lt _ _ (by omega)]
  simp only [d, r]

theorem le32_byteAt (m : Words16) (i : Nat) (hi : i < 16) :
    le32 (byteAt m (4 * i)) (byteAt m (4 * i + 1)) (byteAt m (4 * i + 2)) (byteAt m (4 * i + 3)) = m[i] := by
  rw [byteAt_lane m i 1 hi (by omega), byteAt_lane m i 2 hi (by omega), byteAt_lane m i 3 hi (by omega),
    show byteAt m (4 * i) = byteLane m[i] 0 from byteAt_lane m i 0 hi (by omega)]
  exact le32_byteLane m[i]

/-- A lane of an XOR is the XOR of the lanes. -/
theorem byteLane_xor (v w : Word) (k : Nat) : byteLane (v ^^^ w) k = byteLane v k ^^^ byteLane w k := by
  apply BitVec.eq_of_getLsbD_eq
  intro i hi
  rw [BitVec.getLsbD_xor, getLsbD_byteLane _ _ _ hi, getLsbD_byteLane _ _ _ hi, getLsbD_byteLane _ _ _ hi,
    BitVec.getLsbD_xor]

/-- A buffer is its 64 bytes. -/
theorem bufferOf_byteAt (m : Words16) : bufferOf (byteAt m) = m := by
  apply Vector.ext
  intro i hi
  rw [getElem_bufferOf _ _ hi, le32_byteAt _ _ hi]

/-- Two buffers with the same 64 bytes are the same. -/
theorem words16_ext_bytes {m n : Words16} (h : ∀ j, j < 64 → byteAt m j = byteAt n j) : m = n := by
  apply Vector.ext
  intro i hi
  rw [← le32_byteAt m i hi, ← le32_byteAt n i hi, h _ (by omega), h _ (by omega), h _ (by omega), h _ (by omega)]

@[simp] theorem length_blockOf (m : Words16) : (blockOf m).length = 64 := by simp [blockOf]

theorem getD_blockOf (m : Words16) (j : Nat) (hj : j < 64) : (blockOf m).getD j 0 = byteAt m j := by
  simp [blockOf, List.getD_eq_getElem?_getD, hj]

@[simp] theorem length_be64bytes (l : BitVec 64) : (be64bytes l).length = 8 := rfl

/-- Every block the framer builds is 64 bytes (41_framer.md R142, R143). -/
theorem length_paddedBlock (m : Words16) (n : Nat) (len : BitVec 64) (hn : n ≤ 55) :
    (paddedBlock (blockOf m) n len).length = 64 := by
  simp [paddedBlock, zeros]; omega

theorem length_splitFirst (m : Words16) (n : Nat) (hn : n ≤ 63) : (splitFirst (blockOf m) n).length = 64 := by
  simp [splitFirst, zeros]; omega

theorem length_splitSecond (len : BitVec 64) : (splitSecond len).length = 64 := by
  simp [splitSecond, zeros]

end Sys2Proof.Machine
end

