-- ==== Sys2Proof/Laws/Decode.lean ====
section
/-! SUPPORT. The fields of a command word: what the encoder lays down, the decoder takes up. -/

namespace Sys2Proof.Laws

@[simp] theorem opcOf_encode (i : Instr) : opcOf (encode i) = i.opcode := by
  ext k hk
  have h : k < 8 := hk
  have h' : k < 32 := by omega
  simp [opcOf, encode, h, h']

@[simp] theorem lengthOf_encode (i : Instr) : lengthOf (encode i) = i.length := by
  ext k hk
  have h : ¬ 8 + k < 8 := by omega
  have h' : 8 + k < 32 := by omega
  simp [lengthOf, encode, h', BitVec.getLsbD_eq_getElem hk]

@[simp] theorem reservedOf_encode (i : Instr) : reservedOf (encode i) = 0 := by
  ext k hk
  have h : 15 + k < 32 := by omega
  have e : ¬ 15 + k < 8 := by omega
  have e' : i.opcode.getLsbD (15 + k) = false := BitVec.getLsbD_of_ge _ _ (by omega)
  have l' : i.length.getLsbD (15 + k - 8) = false := BitVec.getLsbD_of_ge _ _ (by omega)
  simp [reservedOf, encode, h, e', l']

/-- The fields as numbers: OPC, N and RES of the word as quotients and remainders of its value. -/
theorem toNat_opcOf (v : Word) : (opcOf v).toNat = v.toNat % 2 ^ 8 := by
  simp [opcOf, BitVec.extractLsb'_toNat]

theorem toNat_lengthOf (v : Word) : (lengthOf v).toNat = v.toNat / 2 ^ 8 % 2 ^ 7 := by
  simp [lengthOf, BitVec.extractLsb'_toNat, Nat.shiftRight_eq_div_pow]

theorem toNat_reservedOf (v : Word) : (reservedOf v).toNat = v.toNat / 2 ^ 15 := by
  have h := v.isLt
  simp only [reservedOf, BitVec.extractLsb'_toNat, Nat.shiftRight_eq_div_pow]
  omega

/-- A word is its three fields: two words with the same RES, N and OPC are the same word. -/
theorem eq_of_fields {v w : Word} (ho : opcOf v = opcOf w) (hl : lengthOf v = lengthOf w)
    (hr : reservedOf v = reservedOf w) : v = w := by
  have o := congrArg BitVec.toNat ho
  have l := congrArg BitVec.toNat hl
  have r := congrArg BitVec.toNat hr
  simp only [toNat_opcOf, toNat_lengthOf, toNat_reservedOf] at o l r
  apply BitVec.eq_of_toNat_eq
  omega

/-- The command word of i as a number: OPC + 256 N. -/
theorem toNat_encode (i : Instr) : (encode i).toNat = i.opcode.toNat + 256 * i.length.toNat := by
  have o := congrArg BitVec.toNat (opcOf_encode i)
  have l := congrArg BitVec.toNat (lengthOf_encode i)
  have r := congrArg BitVec.toNat (reservedOf_encode i)
  have z : (0 : BitVec 17).toNat = 0 := rfl
  rw [z] at r
  simp only [toNat_opcOf, toNat_lengthOf, toNat_reservedOf] at o l r
  omega

end Sys2Proof.Laws
end

