-- ==== Sys2Proof/Laws/Digest.lean ====
section
/-! SUPPORT. The schedule as it grows: its first 16 + n words after n steps of the recurrence, which later steps keep. -/

namespace Sys2Proof.Machine

/-- The first 16 + n schedule words of a block. -/
def schedulePrefix (b : Block) (n : Nat) : List Word :=
  Nat.repeat extendSchedule n ((List.range 16).map (blockWord b))

theorem schedule_eq_prefix (b : Block) : schedule b = schedulePrefix b 48 := rfl

theorem schedulePrefix_succ (b : Block) (n : Nat) :
    schedulePrefix b (n + 1) = extendSchedule (schedulePrefix b n) := rfl

theorem extendSchedule_eq (w : List Word) :
    extendSchedule w = w ++ [w.getD (w.length - 16) 0 + smallSigma0 (w.getD (w.length - 15) 0) +
      w.getD (w.length - 7) 0 + smallSigma1 (w.getD (w.length - 2) 0)] := rfl

@[simp] theorem length_schedulePrefix (b : Block) (n : Nat) : (schedulePrefix b n).length = 16 + n := by
  induction n with
  | zero => simp [schedulePrefix, Nat.repeat]
  | succ n ih =>
    rw [schedulePrefix_succ, extendSchedule_eq]
    simp [ih]
    omega

/-- A schedule word, once computed, stays. -/
theorem getD_schedulePrefix_add (b : Block) (n m t : Nat) (h : t < 16 + n) :
    (schedulePrefix b (n + m)).getD t 0 = (schedulePrefix b n).getD t 0 := by
  induction m with
  | zero => rfl
  | succ m ih =>
    rw [← ih, ← Nat.add_assoc, schedulePrefix_succ, extendSchedule_eq]
    exact List.getD_append _ _ _ _ (by rw [length_schedulePrefix]; omega)

end Sys2Proof.Machine
end

