-- ==== Sys2Proof/Laws/State.lean ====
section
/-! SUPPORT. One lemma per field for each named update of State, so that no proof unfolds a record update. -/

namespace Sys2Proof.Machine

@[simp] theorem raiseError_busy (c : ErrorCode) (v : Word) (s : State) : (raiseError c v s).busy = s.busy := rfl
@[simp] theorem raiseError_shaDone (c : ErrorCode) (v : Word) (s : State) : (raiseError c v s).shaDone = s.shaDone := rfl
@[simp] theorem raiseError_streamDone (c : ErrorCode) (v : Word) (s : State) : (raiseError c v s).streamDone = s.streamDone := rfl
@[simp] theorem raiseError_err (c : ErrorCode) (v : Word) (s : State) : (raiseError c v s).err = true := rfl
@[simp] theorem raiseError_errCode (c : ErrorCode) (v : Word) (s : State) : (raiseError c v s).errCode = c := rfl
@[simp] theorem raiseError_errCmd (c : ErrorCode) (v : Word) (s : State) : (raiseError c v s).errCmd = v := rfl
@[simp] theorem raiseError_h (c : ErrorCode) (v : Word) (s : State) : (raiseError c v s).h = s.h := rfl
@[simp] theorem raiseError_lenLo (c : ErrorCode) (v : Word) (s : State) : (raiseError c v s).lenLo = s.lenLo := rfl
@[simp] theorem raiseError_lenHi (c : ErrorCode) (v : Word) (s : State) : (raiseError c v s).lenHi = s.lenHi := rfl
@[simp] theorem raiseError_msg (c : ErrorCode) (v : Word) (s : State) : (raiseError c v s).msg = s.msg := rfl
@[simp] theorem raiseError_key (c : ErrorCode) (v : Word) (s : State) : (raiseError c v s).key = s.key := rfl
@[simp] theorem raiseError_smk (c : ErrorCode) (v : Word) (s : State) : (raiseError c v s).smk = s.smk := rfl
@[simp] theorem raiseError_ctrLo (c : ErrorCode) (v : Word) (s : State) : (raiseError c v s).ctrLo = s.ctrLo := rfl
@[simp] theorem raiseError_ctrHi (c : ErrorCode) (v : Word) (s : State) : (raiseError c v s).ctrHi = s.ctrHi := rfl
@[simp] theorem raiseError_data (c : ErrorCode) (v : Word) (s : State) : (raiseError c v s).data = s.data := rfl
@[simp] theorem raiseError_ks (c : ErrorCode) (v : Word) (s : State) : (raiseError c v s).ks = s.ks := rfl
@[simp] theorem raiseError_pending (c : ErrorCode) (v : Word) (s : State) : (raiseError c v s).pending = s.pending := rfl
@[simp] theorem raiseError_responses (c : ErrorCode) (v : Word) (s : State) : (raiseError c v s).responses = s.responses := rfl

@[simp] theorem clearError_busy (s : State) : (clearError s).busy = s.busy := rfl
@[simp] theorem clearError_shaDone (s : State) : (clearError s).shaDone = s.shaDone := rfl
@[simp] theorem clearError_streamDone (s : State) : (clearError s).streamDone = s.streamDone := rfl
@[simp] theorem clearError_err (s : State) : (clearError s).err = false := rfl
@[simp] theorem clearError_errCode (s : State) : (clearError s).errCode = .none := rfl
@[simp] theorem clearError_errCmd (s : State) : (clearError s).errCmd = 0 := rfl
@[simp] theorem clearError_h (s : State) : (clearError s).h = s.h := rfl
@[simp] theorem clearError_lenLo (s : State) : (clearError s).lenLo = s.lenLo := rfl
@[simp] theorem clearError_lenHi (s : State) : (clearError s).lenHi = s.lenHi := rfl
@[simp] theorem clearError_msg (s : State) : (clearError s).msg = s.msg := rfl
@[simp] theorem clearError_key (s : State) : (clearError s).key = s.key := rfl
@[simp] theorem clearError_smk (s : State) : (clearError s).smk = s.smk := rfl
@[simp] theorem clearError_ctrLo (s : State) : (clearError s).ctrLo = s.ctrLo := rfl
@[simp] theorem clearError_ctrHi (s : State) : (clearError s).ctrHi = s.ctrHi := rfl
@[simp] theorem clearError_data (s : State) : (clearError s).data = s.data := rfl
@[simp] theorem clearError_ks (s : State) : (clearError s).ks = s.ks := rfl
@[simp] theorem clearError_pending (s : State) : (clearError s).pending = s.pending := rfl
@[simp] theorem clearError_responses (s : State) : (clearError s).responses = s.responses := rfl

@[simp] theorem respond_busy (r : Response) (s : State) : (respond r s).busy = s.busy := rfl
@[simp] theorem respond_shaDone (r : Response) (s : State) : (respond r s).shaDone = s.shaDone := rfl
@[simp] theorem respond_streamDone (r : Response) (s : State) : (respond r s).streamDone = s.streamDone := rfl
@[simp] theorem respond_err (r : Response) (s : State) : (respond r s).err = s.err := rfl
@[simp] theorem respond_errCode (r : Response) (s : State) : (respond r s).errCode = s.errCode := rfl
@[simp] theorem respond_errCmd (r : Response) (s : State) : (respond r s).errCmd = s.errCmd := rfl
@[simp] theorem respond_h (r : Response) (s : State) : (respond r s).h = s.h := rfl
@[simp] theorem respond_lenLo (r : Response) (s : State) : (respond r s).lenLo = s.lenLo := rfl
@[simp] theorem respond_lenHi (r : Response) (s : State) : (respond r s).lenHi = s.lenHi := rfl
@[simp] theorem respond_msg (r : Response) (s : State) : (respond r s).msg = s.msg := rfl
@[simp] theorem respond_key (r : Response) (s : State) : (respond r s).key = s.key := rfl
@[simp] theorem respond_smk (r : Response) (s : State) : (respond r s).smk = s.smk := rfl
@[simp] theorem respond_ctrLo (r : Response) (s : State) : (respond r s).ctrLo = s.ctrLo := rfl
@[simp] theorem respond_ctrHi (r : Response) (s : State) : (respond r s).ctrHi = s.ctrHi := rfl
@[simp] theorem respond_data (r : Response) (s : State) : (respond r s).data = s.data := rfl
@[simp] theorem respond_ks (r : Response) (s : State) : (respond r s).ks = s.ks := rfl
@[simp] theorem respond_pending (r : Response) (s : State) : (respond r s).pending = s.pending := rfl
@[simp] theorem respond_responses (r : Response) (s : State) : (respond r s).responses = r :: s.responses := rfl

@[simp] theorem answered_busy (s : State) (rest : List HostEvent) (r : Response) : (s.answered rest r).busy = s.busy := rfl
@[simp] theorem answered_shaDone (s : State) (rest : List HostEvent) (r : Response) : (s.answered rest r).shaDone = s.shaDone := rfl
@[simp] theorem answered_streamDone (s : State) (rest : List HostEvent) (r : Response) : (s.answered rest r).streamDone = s.streamDone := rfl
@[simp] theorem answered_err (s : State) (rest : List HostEvent) (r : Response) : (s.answered rest r).err = s.err := rfl
@[simp] theorem answered_errCode (s : State) (rest : List HostEvent) (r : Response) : (s.answered rest r).errCode = s.errCode := rfl
@[simp] theorem answered_errCmd (s : State) (rest : List HostEvent) (r : Response) : (s.answered rest r).errCmd = s.errCmd := rfl
@[simp] theorem answered_h (s : State) (rest : List HostEvent) (r : Response) : (s.answered rest r).h = s.h := rfl
@[simp] theorem answered_lenLo (s : State) (rest : List HostEvent) (r : Response) : (s.answered rest r).lenLo = s.lenLo := rfl
@[simp] theorem answered_lenHi (s : State) (rest : List HostEvent) (r : Response) : (s.answered rest r).lenHi = s.lenHi := rfl
@[simp] theorem answered_msg (s : State) (rest : List HostEvent) (r : Response) : (s.answered rest r).msg = s.msg := rfl
@[simp] theorem answered_key (s : State) (rest : List HostEvent) (r : Response) : (s.answered rest r).key = s.key := rfl
@[simp] theorem answered_smk (s : State) (rest : List HostEvent) (r : Response) : (s.answered rest r).smk = s.smk := rfl
@[simp] theorem answered_ctrLo (s : State) (rest : List HostEvent) (r : Response) : (s.answered rest r).ctrLo = s.ctrLo := rfl
@[simp] theorem answered_ctrHi (s : State) (rest : List HostEvent) (r : Response) : (s.answered rest r).ctrHi = s.ctrHi := rfl
@[simp] theorem answered_data (s : State) (rest : List HostEvent) (r : Response) : (s.answered rest r).data = s.data := rfl
@[simp] theorem answered_ks (s : State) (rest : List HostEvent) (r : Response) : (s.answered rest r).ks = s.ks := rfl
@[simp] theorem answered_pending (s : State) (rest : List HostEvent) (r : Response) : (s.answered rest r).pending = rest := rfl
@[simp] theorem answered_responses (s : State) (rest : List HostEvent) (r : Response) : (s.answered rest r).responses = r :: s.responses := rfl

@[simp] theorem resetEvent_busy (s : State) : (resetEvent s).busy = State.reset.busy := rfl
@[simp] theorem resetEvent_shaDone (s : State) : (resetEvent s).shaDone = State.reset.shaDone := rfl
@[simp] theorem resetEvent_streamDone (s : State) : (resetEvent s).streamDone = State.reset.streamDone := rfl
@[simp] theorem resetEvent_err (s : State) : (resetEvent s).err = State.reset.err := rfl
@[simp] theorem resetEvent_errCode (s : State) : (resetEvent s).errCode = State.reset.errCode := rfl
@[simp] theorem resetEvent_errCmd (s : State) : (resetEvent s).errCmd = State.reset.errCmd := rfl
@[simp] theorem resetEvent_h (s : State) : (resetEvent s).h = State.reset.h := rfl
@[simp] theorem resetEvent_lenLo (s : State) : (resetEvent s).lenLo = State.reset.lenLo := rfl
@[simp] theorem resetEvent_lenHi (s : State) : (resetEvent s).lenHi = State.reset.lenHi := rfl
@[simp] theorem resetEvent_msg (s : State) : (resetEvent s).msg = State.reset.msg := rfl
@[simp] theorem resetEvent_key (s : State) : (resetEvent s).key = State.reset.key := rfl
@[simp] theorem resetEvent_smk (s : State) : (resetEvent s).smk = State.reset.smk := rfl
@[simp] theorem resetEvent_ctrLo (s : State) : (resetEvent s).ctrLo = State.reset.ctrLo := rfl
@[simp] theorem resetEvent_ctrHi (s : State) : (resetEvent s).ctrHi = State.reset.ctrHi := rfl
@[simp] theorem resetEvent_data (s : State) : (resetEvent s).data = State.reset.data := rfl
@[simp] theorem resetEvent_ks (s : State) : (resetEvent s).ks = State.reset.ks := rfl
@[simp] theorem resetEvent_pending (s : State) : (resetEvent s).pending = s.pending := rfl
@[simp] theorem resetEvent_responses (s : State) : (resetEvent s).responses = s.responses := rfl

@[simp] theorem withPending_busy (s : State) (p : List HostEvent) : (s.withPending p).busy = s.busy := rfl
@[simp] theorem withPending_shaDone (s : State) (p : List HostEvent) : (s.withPending p).shaDone = s.shaDone := rfl
@[simp] theorem withPending_streamDone (s : State) (p : List HostEvent) : (s.withPending p).streamDone = s.streamDone := rfl
@[simp] theorem withPending_err (s : State) (p : List HostEvent) : (s.withPending p).err = s.err := rfl
@[simp] theorem withPending_errCode (s : State) (p : List HostEvent) : (s.withPending p).errCode = s.errCode := rfl
@[simp] theorem withPending_errCmd (s : State) (p : List HostEvent) : (s.withPending p).errCmd = s.errCmd := rfl
@[simp] theorem withPending_h (s : State) (p : List HostEvent) : (s.withPending p).h = s.h := rfl
@[simp] theorem withPending_lenLo (s : State) (p : List HostEvent) : (s.withPending p).lenLo = s.lenLo := rfl
@[simp] theorem withPending_lenHi (s : State) (p : List HostEvent) : (s.withPending p).lenHi = s.lenHi := rfl
@[simp] theorem withPending_msg (s : State) (p : List HostEvent) : (s.withPending p).msg = s.msg := rfl
@[simp] theorem withPending_key (s : State) (p : List HostEvent) : (s.withPending p).key = s.key := rfl
@[simp] theorem withPending_smk (s : State) (p : List HostEvent) : (s.withPending p).smk = s.smk := rfl
@[simp] theorem withPending_ctrLo (s : State) (p : List HostEvent) : (s.withPending p).ctrLo = s.ctrLo := rfl
@[simp] theorem withPending_ctrHi (s : State) (p : List HostEvent) : (s.withPending p).ctrHi = s.ctrHi := rfl
@[simp] theorem withPending_data (s : State) (p : List HostEvent) : (s.withPending p).data = s.data := rfl
@[simp] theorem withPending_ks (s : State) (p : List HostEvent) : (s.withPending p).ks = s.ks := rfl
@[simp] theorem withPending_pending (s : State) (p : List HostEvent) : (s.withPending p).pending = p := rfl
@[simp] theorem withPending_responses (s : State) (p : List HostEvent) : (s.withPending p).responses = s.responses := rfl

@[simp] theorem withPending_withPending (s : State) (p q : List HostEvent) :
    (s.withPending p).withPending q = s.withPending q := rfl

@[simp] theorem withPending_answered (s : State) (p rest : List HostEvent) (r : Response) :
    (s.withPending p).answered rest r = s.answered rest r := rfl

theorem respond_withPending (s : State) (rest : List HostEvent) (r : Response) :
    respond r (s.withPending rest) = s.answered rest r := rfl

end Sys2Proof.Machine
end

