-- ==== Sys2Proof/Laws/Ops.lean ====
section
/-! SUPPORT. What running a command can do: the effect of each command as one state, and the three cases of `exec`. -/

namespace Sys2Proof.Machine

/-- The state a command leaves when it is not ignored and meets no error. -/
def effect (i : Instr) (s : State) : State :=
  match i with
  | .nop => s
  | .shaInit => { s with h := initialHash, lenLo := 0, lenHi := 0, shaDone := false }
  | .shaCompress => { s with h := compress s.h (blockOf s.msg) }
  | .shaChunk n =>
    { s with
      lenLo := lenLoAfter n.toNat s.lenLo
      lenHi := lenHiAfter n.toNat s.lenLo s.lenHi
      h := digestChunk s.h (blockOf s.msg) n.toNat
        (pair64 (lenHiAfter n.toNat s.lenLo s.lenHi) (lenLoAfter n.toNat s.lenLo))
      shaDone := sealedBy n.toNat s.shaDone }
  | .keyFromDigest => { s with key := s.h }
  | .chachaInit => { s with smk := s.key, ctrLo := 0, ctrHi := 0, streamDone := false }
  | .chachaBlock => { s with ks := chachaBlock s.smk s.ctrLo s.ctrHi }
  | .chachaXor n =>
    { s with
      ks := chachaBlock s.smk s.ctrLo s.ctrHi
      data := xorBytes n.toNat s.data (chachaBlock s.smk s.ctrLo s.ctrHi)
      ctrLo := ctrLoAfter s.ctrLo
      ctrHi := ctrHiAfter s.ctrLo s.ctrHi
      streamDone := sealedBy n.toNat s.streamDone }

theorem exec_eq_runCommand (i : Instr) (s : State) : exec i s = runCommand i s (effect i s) := by
  cases i <;> rfl

theorem runCommand_of_err {i : Instr} {s t : State} (h : s.err = true) : runCommand i s t = .next s := by
  simp [runCommand, h]

theorem runCommand_of_error {i : Instr} {s t : State} {c : ErrorCode} (h : s.err = false)
    (hc : commandError i s = some c) : runCommand i s t = .next (raiseError c (encode i) s) := by
  simp [runCommand, h, hc]

theorem runCommand_of_ok {i : Instr} {s t : State} (h : s.err = false) (hc : commandError i s = none) :
    runCommand i s t = .next t := by
  simp [runCommand, h, hc]

/-- A command that is not ignored and meets no error leaves its effect. -/
theorem exec_of_ok {i : Instr} {s : State} (h : s.err = false) (hc : commandError i s = none) :
    exec i s = .next (effect i s) := by
  rw [exec_eq_runCommand, runCommand_of_ok h hc]

/-- Everything a command can do: it is ignored, it enters one error, or it leaves its effect. -/
theorem exec_cases {i : Instr} {s t : State} (h : exec i s = .next t) :
    (s.err = true ∧ t = s) ∨
    (s.err = false ∧ ∃ c, commandError i s = some c ∧ t = raiseError c (encode i) s) ∨
    (s.err = false ∧ commandError i s = none ∧ t = effect i s) := by
  rw [exec_eq_runCommand] at h
  cases he : s.err
  · cases hc : commandError i s with
    | some c =>
      rw [runCommand_of_error he hc] at h
      exact .inr (.inl ⟨rfl, c, rfl, (Host.Outcome.next.inj h).symm⟩)
    | none =>
      rw [runCommand_of_ok he hc] at h
      exact .inr (.inr ⟨rfl, rfl, (Host.Outcome.next.inj h).symm⟩)
  · rw [runCommand_of_err he] at h
    exact .inl ⟨rfl, (Host.Outcome.next.inj h).symm⟩

/-- A command's error is that of its length or its seal. -/
theorem commandError_shaChunk (n : BitVec 7) (s : State) :
    commandError (.shaChunk n) s =
      if 64 < n.toNat then some .badLength else if s.shaDone then some .shaSealed else none := rfl

theorem commandError_chachaXor (n : BitVec 7) (s : State) :
    commandError (.chachaXor n) s =
      if n.toNat = 0 ∨ 64 < n.toNat then some .badLength
      else if s.streamDone then some .streamSealed else none := rfl

/-- No command touches what is not the CORE's: BUSY, the host's queue and its record. -/
theorem effect_host (i : Instr) (s : State) :
    (effect i s).busy = s.busy ∧ (effect i s).pending = s.pending ∧ (effect i s).responses = s.responses ∧
    (effect i s).err = s.err ∧ (effect i s).errCode = s.errCode ∧ (effect i s).errCmd = s.errCmd := by
  cases i <;> simp [effect]

end Sys2Proof.Machine
end

