-- ==== Sys2Proof/Laws/PerInstr.lean ====
section
/-! SUPPORT. Facts made per instruction: the fields of its command word (30_encoding.md R91, R93). -/

namespace Sys2Proof.Laws.EncodedFields

/-- The command word of i has RES = 0, i's N and i's opcode, and is the number OPC + 256 N. -/
def Statement (i : Instr) : Prop :=
  reservedOf (encode i) = 0 ∧ lengthOf (encode i) = i.length ∧ opcOf (encode i) = i.opcode ∧
    (encode i).toNat = i.opcode.toNat + 256 * i.length.toNat

theorem of_fields (i : Instr) : Statement i :=
  ⟨reservedOf_encode i, lengthOf_encode i, opcOf_encode i, toNat_encode i⟩

theorem nop : Statement .nop := of_fields _

theorem shaInit : Statement .shaInit := of_fields _

theorem shaCompress : Statement .shaCompress := of_fields _

theorem shaChunk (n : BitVec 7) : Statement (.shaChunk n) := of_fields _

theorem keyFromDigest : Statement .keyFromDigest := of_fields _

theorem chachaInit : Statement .chachaInit := of_fields _

theorem chachaBlock : Statement .chachaBlock := of_fields _

theorem chachaXor (n : BitVec 7) : Statement (.chachaXor n) := of_fields _

end Sys2Proof.Laws.EncodedFields
end

