-- ==== Sys2Proof/Laws/Window.lean ====
section
/-! SUPPORT. What a CMD write, a register write and one host event can do, each said once. -/

namespace Sys2Proof.Machine

theorem step_of_pending {s : State} {e : HostEvent} {rest : List HostEvent} (h : s.pending = e :: rest) :
    step s = perform e (s.withPending rest) := by
  unfold step
  rw [h]

/-- Everything a CMD write can do: nothing while ERR = 1, an encoding error, or the decoded command. -/
theorem issue_cases {v : Word} {s t : State} (h : issue v s = .next t) :
    (s.err = true ∧ t = s) ∨
    (s.err = false ∧ decode v = .illegalCmd ∧ t = raiseError .illegalCmd v s) ∨
    (s.err = false ∧ decode v = .badLength ∧ t = raiseError .badLength v s) ∨
    (s.err = false ∧ ∃ i, decode v = .cmd i ∧ exec i s = .next t) := by
  unfold issue at h
  cases he : s.err
  · rw [he] at h
    simp only [Bool.false_eq_true, if_false] at h
    split at h
    · exact .inr (.inl ⟨rfl, ‹_›, (Host.Outcome.next.inj h).symm⟩)
    · exact .inr (.inr (.inl ⟨rfl, ‹_›, (Host.Outcome.next.inj h).symm⟩))
    · exact .inr (.inr (.inr ⟨rfl, _, ‹_›, h⟩))
  · rw [he] at h
    exact .inl ⟨rfl, (Host.Outcome.next.inj h).symm⟩

/-- A CMD write whose word decodes to a command is that command, also while ERR = 1. -/
theorem issue_of_cmd {v : Word} {i : Instr} (s : State) (h : decode v = .cmd i) : issue v s = exec i s := by
  cases he : s.err
  · simp [issue, he, h]
  · rw [exec_eq_runCommand, runCommand_of_err he]
    simp [issue, he]

/-- An event is not performed by a state that is not free: the two ways an access changes no CORE state, the read, the
write of a register, and reset. -/
theorem perform_cases {e : HostEvent} {s t : State} (h : perform e s = .next t) :
    (∃ off n, e = .memRead off n ∧ off < Config.windowSize ∧
      ((isBusError off n = true ∧ t = respond (.readBusError 0) s) ∨
       (isBusError off n = false ∧ t = respond (.readData (readReg (regAt off) s)) s))) ∨
    (∃ off n v, e = .memWrite off n v ∧ off < Config.windowSize ∧ s.busy = false ∧
      ((isBusError off n = true ∧ t = respond .writeBusError s) ∨
       (isBusError off n = false ∧ writeReg (regAt off) v (respond .writeDone s) = .next t))) ∨
    (e = .reset ∧ t = resetEvent s) := by
  cases e with
  | memRead off n =>
    refine .inl ⟨off, n, rfl, ?_⟩
    simp only [perform] at h
    split at h
    · cases h
    · split at h
      · cases h
      · refine ⟨by omega, ?_⟩
        split at h <;> rename_i hb
        · exact .inl ⟨hb, (Host.Outcome.next.inj h).symm⟩
        · exact .inr ⟨by simpa using hb, (Host.Outcome.next.inj h).symm⟩
  | memWrite off n v =>
    refine .inr (.inl ⟨off, n, v, rfl, ?_⟩)
    simp only [perform] at h
    split at h
    · cases h
    · split at h
      · cases h
      · rename_i hbusy
        refine ⟨by omega, by simpa using hbusy, ?_⟩
        split at h <;> rename_i hb
        · exact .inl ⟨hb, (Host.Outcome.next.inj h).symm⟩
        · exact .inr ⟨by simpa using hb, h⟩
  | reset => exact .inr (.inr ⟨rfl, (Host.Outcome.next.inj h).symm⟩)

/-- A legal access is 4 bytes wide at a multiple of 4. -/
theorem isBusError_false {off n : Nat} : isBusError off n = false ↔ n = 4 ∧ off % 4 = 0 := by
  simp [isBusError]

theorem readReg_withPending (r : Reg) (s : State) (p : List HostEvent) :
    readReg r (s.withPending p) = readReg r s := by
  cases r <;> rfl

/-- What a register reads as does not depend on the host's queue or record. -/
theorem readReg_answered (r : Reg) (s : State) (rest : List HostEvent) (a : Response) :
    readReg r (s.answered rest a) = readReg r s := by
  cases r <;> rfl

/-- A legal read is answered with the register's value and changes nothing else. -/
theorem perform_read {off : Nat} {s : State} (hb : s.busy = false) (ho : off < 0x200) (ha : off % 4 = 0) :
    perform (.memRead off 4) s = .next (respond (.readData (readReg (regAt off) s)) s) := by
  have e : isBusError off 4 = false := isBusError_false.2 ⟨rfl, ha⟩
  have w : ¬ Config.windowSize ≤ off := by simp only [Config.windowSize]; omega
  simp [perform, hb, e, w]

/-- A legal write is the write of the register at its offset, with the access answered. -/
theorem perform_write {off : Nat} {s : State} (v : Word) (hb : s.busy = false) (ho : off < 0x200) (ha : off % 4 = 0) :
    perform (.memWrite off 4 v) s = writeReg (regAt off) v (respond .writeDone s) := by
  have e : isBusError off 4 = false := isBusError_false.2 ⟨rfl, ha⟩
  have w : ¬ Config.windowSize ≤ off := by simp only [Config.windowSize]; omega
  simp [perform, hb, e, w]

/-- A step whose next event is a legal write. -/
theorem step_write {off : Nat} {s : State} {v : Word} {rest : List HostEvent} (hb : s.busy = false) (ho : off < 0x200)
    (ha : off % 4 = 0) (hp : s.pending = .memWrite off 4 v :: rest) :
    step s = writeReg (regAt off) v (s.answered rest .writeDone) := by
  rw [step_of_pending hp]
  exact perform_write (s := s.withPending rest) v hb ho ha

/-- A step whose next event is a CMD write. -/
theorem step_issue {s : State} {v : Word} {rest : List HostEvent} (hb : s.busy = false)
    (hp : s.pending = .memWrite 0x004 4 v :: rest) : step s = issue v (s.answered rest .writeDone) :=
  step_write hb (by decide) (by decide) hp

/-- A step whose next event is a legal read. -/
theorem readsAs_of_mapped {off : Nat} {s : State} (hb : s.busy = false) (ho : off < 0x200) (ha : off % 4 = 0) :
    s.readsAs off (readReg (regAt off) s) := by
  intro rest
  rw [step_of_pending rfl]
  have h := perform_read (s := s.withPending rest) hb ho ha
  rw [readReg_withPending] at h
  exact h

/-- A legal write whose register write leaves t, whatever the host's queue and record, writes to the state t. -/
theorem writesTo_of_writeReg {off : Nat} {s t : State} {v : Word} (hb : s.busy = false) (ho : off < 0x200)
    (ha : off % 4 = 0)
    (h : ∀ rest, writeReg (regAt off) v (s.answered rest .writeDone) = .next (t.answered rest .writeDone)) :
    s.writesTo off v t := by
  intro rest
  rw [← h rest]
  exact step_write (s := s.withPending (.memWrite off 4 v :: rest)) hb ho ha rfl

/-- A command does not read the host's queue, and keeps it. -/
theorem exec_withPending (i : Instr) (s : State) (p : List HostEvent) :
    exec i (s.withPending p) = match exec i s with
      | .next t => .next (t.withPending p)
      | .fault r => .fault r
      | .refused r => .refused r := by
  have hp : commandError i (s.withPending p) = commandError i s := by cases i <;> rfl
  have hx : effect i (s.withPending p) = (effect i s).withPending p := by cases i <;> rfl
  rw [exec_eq_runCommand, exec_eq_runCommand, hx]
  rcases Bool.eq_false_or_eq_true s.err with he | he
  · rw [runCommand_of_err he, runCommand_of_err (by exact he)]
  · cases hc : commandError i s
    · rw [runCommand_of_ok he hc, runCommand_of_ok (by exact he) (hp.trans hc)]
    · rw [runCommand_of_error he hc, runCommand_of_error (by exact he) (hp.trans hc)]
      rfl

theorem issue_withPending (v : Word) (s : State) (p : List HostEvent) :
    issue v (s.withPending p) = match issue v s with
      | .next t => .next (t.withPending p)
      | .fault r => .fault r
      | .refused r => .refused r := by
  unfold issue
  rcases Bool.eq_false_or_eq_true s.err with he | he
  · rw [if_pos he, if_pos (by exact he)]
  · rw [if_neg (by simp [he]), if_neg (by simp [he])]
    split
    · rfl
    · rfl
    · exact exec_withPending _ s p

theorem writeReg_withPending (r : Reg) (v : Word) (s : State) (p : List HostEvent) :
    writeReg r v (s.withPending p) = match writeReg r v s with
      | .next t => .next (t.withPending p)
      | .fault r => .fault r
      | .refused r => .refused r := by
  cases r
  case cmd => exact issue_withPending v s p
  case status => simp only [writeReg]; split <;> rfl
  all_goals rfl

/-- Performing an event does not read the host's queue, and keeps it. -/
theorem perform_withPending (e : HostEvent) (s : State) (p : List HostEvent) :
    perform e (s.withPending p) = match perform e s with
      | .next t => .next (t.withPending p)
      | .fault r => .fault r
      | .refused r => .refused r := by
  cases e with
  | memRead off n =>
    simp only [perform, readReg_withPending]
    by_cases hw : Config.windowSize ≤ off
    · rw [if_pos hw, if_pos hw]
    · by_cases hb : s.busy = true ∧ ¬(off = 0x008 ∧ n = 4)
      · rw [if_neg hw, if_neg hw, if_pos hb, if_pos (by exact hb)]
      · rw [if_neg hw, if_neg hw, if_neg hb, if_neg (by exact hb)]
        split <;> rfl
  | memWrite off n v =>
    simp only [perform]
    by_cases hw : Config.windowSize ≤ off
    · rw [if_pos hw, if_pos hw]
    · by_cases hb : s.busy = true
      · rw [if_neg hw, if_neg hw, if_pos hb, if_pos (by exact hb)]
      · rw [if_neg hw, if_neg hw, if_neg hb, if_neg (by exact hb)]
        split
        · rfl
        · exact writeReg_withPending (regAt off) v (respond .writeDone s) p
  | reset => rfl

theorem performAll_append (as bs : List HostEvent) (s : State) :
    performAll (as ++ bs) s =
      match performAll as s with
      | .next t => performAll bs t
      | .fault r => .fault r
      | .refused r => .refused r := by
  induction as generalizing s with
  | nil => rfl
  | cons e es ih =>
    simp only [List.cons_append, performAll]
    cases perform e s <;> simp [ih]

end Sys2Proof.Machine
end

