-- ==== Sys2Proof/Tests/Slice0.lean ====
section
/-! SUPPORT. My own tests: legal and illegal terms, words written out from the encoding of 30_encoding.md, one-step tests
from the vectors of 95_test_vectors.md, and for each statement with hypotheses a witness that meets them. -/

namespace Sys2Proof.Tests

open Sys2Proof Sys2Proof.Machine

-- ---------------------------------------------------------------- WellFormed

theorem test_wellFormed_sha_chunk : (Instr.shaChunk 0).wellFormed = true ∧ (Instr.shaChunk 64).wellFormed = true ∧
    (Instr.shaChunk 65).wellFormed = false ∧ (Instr.shaChunk 127).wellFormed = false := by decide

theorem test_wellFormed_chacha_xor : (Instr.chachaXor 0).wellFormed = false ∧ (Instr.chachaXor 1).wellFormed = true ∧
    (Instr.chachaXor 64).wellFormed = true ∧ (Instr.chachaXor 65).wellFormed = false := by decide

-- ---------------------------------------------------------------- decoding: RES(17) N(7) OPC(8), R91 and R93

theorem test_decode_nop : decode 0b00000000000000000_0000000_00000000 = .cmd .nop := by decide

theorem test_decode_sha_init : decode 0b00000000000000000_0000000_00000001 = .cmd .shaInit := by decide

theorem test_decode_sha_compress : decode 0b00000000000000000_0000000_00000010 = .cmd .shaCompress := by decide

theorem test_decode_sha_chunk_64 : decode 0b00000000000000000_1000000_00000011 = .cmd (.shaChunk 64) := by decide

theorem test_decode_sha_chunk_3 : decode 0b00000000000000000_0000011_00000011 = .cmd (.shaChunk 3) := by decide

theorem test_decode_key_from_digest : decode 0b00000000000000000_0000000_00000100 = .cmd .keyFromDigest := by decide

theorem test_decode_chacha_init : decode 0b00000000000000000_0000000_00000101 = .cmd .chachaInit := by decide

theorem test_decode_chacha_block : decode 0b00000000000000000_0000000_00000110 = .cmd .chachaBlock := by decide

theorem test_decode_chacha_xor_6 : decode 0b00000000000000000_0000110_00000111 = .cmd (.chachaXor 6) := by decide

/-- V52, V26, V50 and the top bit of RES. -/
theorem test_decode_illegal : ([0x00000008, 0x000000ff, 0x00008000, 0x00008003, 0x00000501, 0x00000100, 0x80000000,
    0x00000106, 0x00000404] : List Word).map decode = List.replicate 9 .illegalCmd := by decide

/-- V26, V42: SHA_CHUNK 65 and 127, CHACHA_XOR 0 and 65. -/
theorem test_decode_bad_length : ([0x00004103, 0x00007f03, 0x00000007, 0x00004107] : List Word).map decode =
    List.replicate 4 .badLength := by decide

/-- R98: the encoding is OPC | N << 8. -/
theorem test_encode_words : encode (.shaChunk 56) = 0x00003803 ∧ encode (.chachaXor 64) = 0x00004007 ∧
    encode .chachaBlock = 0x00000006 := by decide

theorem test_table_words : decodeTableWord 32 0x00000003 = some (.shaChunk 0) ∧ decodeTableWord 32 0x00000005 = some .chachaInit ∧
    decodeTableWord 32 0x00000007 = none := by decide

-- ---------------------------------------------------------------- the arithmetic (V7, V10, V11)

/-- V10, the row of 12345678. -/
theorem test_sigma_functions : smallSigma0 0x12345678 = 0xe7fce6ee ∧ smallSigma1 0x12345678 = 0xa1f78649 ∧
    bigSigma0 0x12345678 = 0x66146474 ∧ bigSigma1 0x12345678 = 0x3561abda := by decide

/-- V10: Ch and Maj. -/
theorem test_choose_majority : ch 0x00000000 0x12345678 0x9abcdef0 = 0x9abcdef0 ∧
    ch 0xf0f0f0f0 0xffffffff 0 = 0xf0f0f0f0 ∧ maj 0xf0f0f0f0 0xcccccccc 0xaaaaaaaa = 0xe8e8e8e8 := by decide

/-- The padded "abc" block of V11 as MSG words in little-endian lanes (V13). -/
def abcWords : Words16 := ((Vector.replicate 16 0).set 0 0x80636261).set 15 0x18000000

/-- V11: W[0], W[15], W[16], W[19] and W[63] of the padded "abc" block. -/
theorem test_schedule : [0, 15, 16, 19, 63].map (fun t => (schedule (blockOf abcWords)).getD t 0) =
    [0x61626380, 0x00000018, 0x61626380, 0x600003c6, 0x12b1edeb] := by decide +kernel

/-- V7: the quarter-round on (11111111, 01020304, 9b8d6f43, 01234567). -/
theorem test_quarter_round :
    ((quarterRound 0 1 2 3 (((((Vector.replicate 16 0).set 0 0x11111111).set 1 0x01020304).set 2 0x9b8d6f43).set 3
      0x01234567)).toList.take 5) = [0xea2a92f4, 0xcb1cf8ce, 0x4581472e, 0x5881c4bb, 0] := by decide +kernel

/-- V8: the block of key bytes 00 to 1f, counter {09000000:1} and nonce words 4a000000 and 0. -/
theorem test_chacha_block_function :
    chachaBlockWith 0x4a000000 0
      #v[0x03020100, 0x07060504, 0x0b0a0908, 0x0f0e0d0c, 0x13121110, 0x17161514, 0x1b1a1918, 0x1f1e1d1c]
      0x00000001 0x09000000 =
    #v[0xe4e7f110, 0x15593bd1, 0x1fdd0f50, 0xc47120a3, 0xc7f4d1c7, 0x0368c033, 0x9aaa2204, 0x4e6cd4c3,
       0x466482d2, 0x09aa9f07, 0x05d7c214, 0xa2028bd9, 0xd19c12b5, 0xb94e16de, 0xe883d0cb, 0x4e3c50a2] := by
  decide +kernel

/-- V40 with the keystream words of V30: three bytes of word 0 change, byte 3 and word 1 stay. -/
theorem test_xor_bytes :
    ((xorBytes 3 (Vector.replicate 16 0x11111111) ((Vector.replicate 16 0).set 0 0xade0b876)).toList.take 2) =
      [0x11f1a967, 0x11111111] := by decide +kernel

/-- V22 and V24: the carry of LEN_LO and the wrap of LEN. -/
theorem test_length_carry : lenLoAfter 64 0xfffffe00 = 0 ∧ lenHiAfter 64 0xfffffe00 0 = 1 ∧
    lenLoAfter 64 0xffffffff = 0x1ff ∧ lenHiAfter 64 0xffffffff 0xffffffff = 0 := by decide

-- ---------------------------------------------------------------- one step of each command

/-- The state a result holds, if it is a next state. -/
def after : Result → Option State
  | .next t => some t
  | .fault _ => none
  | .refused _ => none

theorem test_nop : exec .nop State.reset = .next State.reset := rfl

/-- V13: SHA_INIT from another H, a LEN and the seal. -/
theorem test_sha_init : exec .shaInit { State.reset with
      h := Vector.replicate 8 7, lenLo := 5, lenHi := 6, shaDone := true, msg := abcWords } =
    .next { State.reset with msg := abcWords } := rfl

/-- V13: SHA_COMPRESS of the "abc" block written with little-endian lanes. -/
theorem test_sha_compress : (after (exec .shaCompress { State.reset with msg := abcWords })).map (·.h) =
    some #v[0xba7816bf, 0x8f01cfea, 0x414140de, 0x5dae2223, 0xb00361a3, 0x96177a9c, 0xb410ff61, 0xf20015ad] := by
  decide +kernel

/-- V25: SHA_CHUNK 3 of "abc" with other bytes behind it. -/
theorem test_sha_chunk_single_block :
    (after (exec (.shaChunk 3) { State.reset with msg := (Vector.replicate 16 0xdeadbeef).set 0 0xde636261 })).map
      (fun t => (t.h, t.lenLo, t.shaDone)) =
    some (#v[0xba7816bf, 0x8f01cfea, 0x414140de, 0x5dae2223, 0xb00361a3, 0x96177a9c, 0xb410ff61, 0xf20015ad],
      0x18, true) := by decide +kernel

/-- The bytes 00 01 ... 3f of V20. -/
def countingWords : Words16 :=
  #v[0x03020100, 0x07060504, 0x0b0a0908, 0x0f0e0d0c, 0x13121110, 0x17161514, 0x1b1a1918, 0x1f1e1d1c,
     0x23222120, 0x27262524, 0x2b2a2928, 0x2f2e2d2c, 0x33323130, 0x37363534, 0x3b3a3938, 0x3f3e3d3c]

/-- V20, N = 56: the first two-block split. -/
theorem test_sha_chunk_two_blocks : (after (exec (.shaChunk 56) { State.reset with msg := countingWords })).map (·.h) =
    some #v[0xda2ae4d6, 0xb36748f2, 0xa318f23e, 0x7ab1dfdf, 0x45acdc9d, 0x049bd80e, 0x59de82a6, 0x0895f562] := by
  decide +kernel

/-- V51: from reset the key is IV, and SMK stays 0. -/
theorem test_key_from_digest : exec .keyFromDigest State.reset = .next { State.reset with key := initialHash } := rfl

/-- V35: CHACHA_INIT from CTR = {0:5}, STREAM_DONE = 1 and another SMK, with KEY = 0. -/
theorem test_chacha_init : exec .chachaInit { State.reset with
      smk := Vector.replicate 8 9, ctrLo := 5, streamDone := true, shaDone := true } =
    .next { State.reset with shaDone := true } := rfl

/-- V31: CHACHA_BLOCK leaves CTR and STATUS. -/
theorem test_chacha_block : (after (exec .chachaBlock State.reset)).map
    (fun t => (t.ctrLo, t.ctrHi, statusWord t)) = some (0, 0, 0) := by decide

/-- V43: a full chunk at {FFFFFFFF:FFFFFFFF} wraps the counter and does not seal. -/
theorem test_chacha_xor_wraps :
    (after (exec (.chachaXor 64) { State.reset with ctrLo := 0xffffffff, ctrHi := 0xffffffff })).map
      (fun t => (t.ctrLo, t.ctrHi, statusWord t)) = some (0, 0, 0) := by decide

/-- V40: a short chunk advances the counter and seals. -/
theorem test_chacha_xor_seals : (after (exec (.chachaXor 3) State.reset)).map
    (fun t => (t.ctrLo, t.ctrHi, statusWord t)) = some (1, 0, 4) := by decide

-- ---------------------------------------------------------------- errors and the window

/-- The state after one event of the host, from a state. -/
def stepOn (e : HostEvent) (s : State) : Option State := after (step (s.withPending [e]))

/-- STATUS and ERRCMD after one event. -/
def statusAfter (e : HostEvent) (s : State) : Option (Word × Word) := (stepOn e s).map fun t => (statusWord t, t.errCmd)

/-- V26, rows 1 and 5; V42, row 1. -/
theorem test_encoding_errors :
    statusAfter (.memWrite 0x004 4 0x00004103) State.reset = some (0x28, 0x00004103) ∧
    statusAfter (.memWrite 0x004 4 0x00008003) State.reset = some (0x18, 0x00008003) ∧
    statusAfter (.memWrite 0x004 4 0x00000007) State.reset = some (0x28, 0x00000007) := by decide

/-- V26, rows 3 and 4, and V41: the seals, and BAD_LENGTH before SHA_SEALED. -/
theorem test_seal_errors :
    statusAfter (.memWrite 0x004 4 0x00000003) { State.reset with shaDone := true } = some (0x3a, 0x00000003) ∧
    statusAfter (.memWrite 0x004 4 0x00004103) { State.reset with shaDone := true } = some (0x2a, 0x00004103) ∧
    statusAfter (.memWrite 0x004 4 0x00004007) { State.reset with streamDone := true } = some (0x4c, 0x00004007) := by
  decide

/-- A state with the error of P6. -/
def failed : State := { State.reset with err := true, errCode := .illegalCmd, errCmd := 0x00000008 }

/-- P6: a command is ignored, a buffer write is not, and the clear clears. -/
theorem test_error_protocol :
    statusAfter (.memWrite 0x004 4 0x00000103) failed = some (0x18, 0x00000008) ∧
    (stepOn (.memWrite 0x040 4 0x61) failed).map (·.msg[0]) = some 0x61 ∧
    statusAfter (.memWrite 0x008 4 0x00000008) failed = some (0, 0) := by decide

/-- The response to one event, from reset. -/
def answer (e : HostEvent) : Option (List Response) := (stepOn e State.reset).map (·.responses)

/-- V60: reads. -/
theorem test_reads : answer (.memRead 0x000 4) = some [.readData 0x53430007] ∧
    answer (.memRead 0x004 4) = some [.readData 0] ∧ answer (.memRead 0x1fc 4) = some [.readData 0] ∧
    answer (.memRead 0x02c 4) = some [.readData 0x5be0cd19] := by decide

/-- V60: bus errors. -/
theorem test_bus_errors : answer (.memRead 0x010 2) = some [.readBusError 0] ∧
    answer (.memRead 0x011 4) = some [.readBusError 0] ∧
    stepOn (.memWrite 0x005 4 0x00000001) { State.reset with lenLo := 1 } =
      some { State.reset with lenLo := 1, responses := [.writeBusError] } := by decide

/-- V60: writes; those of ID, KS0 and STATUS bits 2:0 change nothing. -/
theorem test_writes : (stepOn (.memWrite 0x010 4 0x12345678) State.reset).map (·.h[0]) = some 0x12345678 ∧
    ∀ e ∈ [HostEvent.memWrite 0x000 4 0, .memWrite 0x100 4 0x12345678, .memWrite 0x008 4 0x00000007],
      stepOn e State.reset = some { State.reset with responses := [.writeDone] } := by decide

/-- An idle CORE stays as it is (R251), and an access outside the window stops. -/
theorem test_idle_and_outside : step State.reset = .next State.reset ∧
    step (State.reset.withPending [.memRead 0x200 4]) = .fault .outsideWindow := ⟨rfl, rfl⟩

/-- The very next step runs the word of withFetchWord. -/
theorem test_with_fetch_word : (after (step (State.reset.withFetchWord 32 0x00000004))).map (·.key) = some initialHash := by
  decide

-- ---------------------------------------------------------------- witnesses of the statements' hypotheses

theorem test_witness_DecodeOfEncodeIsTheCommand : (Instr.shaChunk 64).wellFormed = true ∧ (Instr.shaChunk 0).wellFormed = true ∧
    (Instr.chachaXor 1).wellFormed = true ∧ Instr.nop.wellFormed = true := by decide

theorem test_witness_DecodedWordIsTheEncoding : decode 0x00004007 = .cmd (.chachaXor 64) := by decide

theorem test_witness_DecodeAgreesWithOpcodeTable : (⟨0x00000003, 0xFFFF80FF⟩ : OpcodeRow) ∈ opcodeTable ∧
    (0x00004003 : Word) &&& 0xFFFF80FF = 0x00000003 := by decide

/-- A state whose next event is one CMD write. -/
def writing (v : Word) (s : State) : State := s.withPending [.memWrite 0x004 4 v]

theorem test_witness_StepRunsTheDecodedCommand :
    (writing 0x00004003 failed).busy = false ∧ (writing 0x00004003 failed).pending = .memWrite 0x004 4 0x00004003 :: [] ∧
    decode 0x00004003 = .cmd (.shaChunk 64) := by decide

theorem test_witness_CmdWriteChecksInOrder :
    (writing 0 State.reset).busy = false ∧ (writing 0 State.reset).pending = .memWrite 0x004 4 0 :: [] ∧
    failed.err = true ∧ State.reset.err = false ∧
    decode 0x00000008 = .illegalCmd ∧ decode 0x00004103 = .badLength ∧
    decode 0x00004003 = .cmd (.shaChunk 64) ∧ ({ State.reset with shaDone := true } : State).shaDone = true ∧
    decode 0x00000107 = .cmd (.chachaXor 1) ∧ ({ State.reset with streamDone := true } : State).streamDone = true ∧
    State.reset.shaDone = false ∧ State.reset.streamDone = false := by decide

theorem test_witness_CommandsAreIgnoredWhileError : failed.busy = false ∧ failed.err = true ∧
    (Reg.data 15).writable = true ∧ (Reg.h 0).writable = true := by decide

theorem test_witness_EveryCommandIsIgnoredWhileError : failed.err = true := rfl

theorem test_witness_StatusWriteClearsTheError : failed.busy = false ∧ (0x00000008 : Word).getLsbD 3 = true ∧
    (0xfffffff7 : Word).getLsbD 3 = false := by decide

/-- The error is kept, cleared by the host, and cleared by reset. -/
theorem test_witness_FirstErrorIsKept : failed.err = true ∧
    (∃ t, step (writing 0x00000001 failed) = .next t ∧ t.err = true) ∧
    (∃ t, step (failed.withPending [.memWrite 0x008 4 0x00000008]) = .next t ∧ t.err = false) ∧
    (∃ t, step (failed.withPending [.reset]) = .next t ∧ t.err = false) :=
  ⟨rfl, ⟨_, rfl, rfl⟩, ⟨_, rfl, rfl⟩, ⟨_, rfl, rfl⟩⟩

theorem test_witness_ShaChunkErrors : State.reset.err = false ∧ 64 < (65 : BitVec 7).toNat ∧ (64 : BitVec 7).toNat ≤ 64 ∧
    ({ State.reset with shaDone := true } : State).shaDone = true := by decide

theorem test_witness_ChachaXorErrors : State.reset.err = false ∧ (0 : BitVec 7).toNat = 0 ∧ 64 < (65 : BitVec 7).toNat ∧
    1 ≤ (1 : BitVec 7).toNat ∧ (64 : BitVec 7).toNat ≤ 64 ∧
    ({ State.reset with streamDone := true } : State).streamDone = true := by decide

theorem test_witness_ReadsReturnTheMappedRegister : failed.busy = false := rfl

/-- An RW register, an RO register, the last reserved word, STATUS and CMD. -/
theorem test_witness_WritesActByRegisterClass : State.reset.busy = false ∧
    (regAt 0x0FC).writable = true ∧ (regAt 0x100).writable = false ∧ (regAt 0x1FC).writable = false ∧
    regAt 0x008 = .status ∧ regAt 0x004 = .cmd ∧ 0x1FC < 0x200 ∧ 0x1FC % 4 = 0 := by decide

theorem test_witness_BusErrorsChangeNothing : State.reset.busy = false ∧ 0x1FF < 0x200 ∧
    (0x1FF % 4 ≠ 0) ∧ (2 ≠ 4 ∧ 0x010 % 4 = 0) := by decide

theorem test_witness_RegisterMapHasNoAliases : regAt 0x038 = .reserved ∧ regAt 0x0BC = .reserved ∧ regAt 0x140 = .reserved ∧
    regAt 0x034 = .lenHi ∧ regAt 0x0C0 = .data 0 ∧ regAt 0x13C = .ks 15 := by decide

theorem test_witness_WindowStandsAtBase : 0x1FF < 0x200 ∧ (Config.base + 0x200 < Config.base ∨
    Config.base + 0x200 ≤ Config.base + 0x200) := ⟨by decide, .inr (Nat.le_refl _)⟩

theorem test_witness_AccessWhileBusyIsRefused : ({ State.reset with busy := true } : State).busy = true ∧
    ¬(0x008 = 0x008 ∧ 1 = 4) ∧ ¬(0x00C = 0x008 ∧ 4 = 4) ∧ 0x1FF < 0x200 := by decide

theorem test_witness_EventsInTheWindowNeverStop : (writing 0xffffffff State.reset).busy = false ∧
    (writing 0xffffffff State.reset).pending = .memWrite 0x004 4 0xffffffff :: [] ∧
    (HostEvent.memWrite 0x1FF 8 0).inWindow ∧ HostEvent.reset.inWindow :=
  ⟨rfl, rfl, by show 0x1FF < Config.windowSize; decide, trivial⟩

theorem test_witness_InitsRestoreTheResetState :
    ({ State.reset with shaDone := true, lenLo := 1, ctrHi := 2 } : State).err = false ∧
    ({ State.reset with shaDone := true, lenLo := 1, ctrHi := 2 } : State).key = State.reset.key := by decide

/-- The invariant with an error pending, and a step from it. -/
theorem test_witness_InvariantKeptByEveryStep : (writing 0x00000001 failed).Inv ∧
    ∃ t, step (writing 0x00000001 failed) = .next t :=
  ⟨⟨rfl, by show decode 0x00000008 = .illegalCmd; decide⟩, _, rfl⟩

theorem test_witness_StatusReadsAreLegal : failed.Inv := ⟨rfl, by show decode 0x00000008 = .illegalCmd; decide⟩

theorem test_witness_ShaDoneChangesOnlyByItsCommands :
    (∃ t, step (writing 0x00003f03 State.reset) = .next t ∧ t.shaDone ≠ false) ∧
    (∃ t, step (writing 0x00000001 { State.reset with shaDone := true }) = .next t ∧ t.shaDone ≠ true) :=
  ⟨⟨_, rfl, by decide⟩, ⟨_, rfl, by decide⟩⟩

theorem test_witness_StreamDoneChangesOnlyByItsCommands :
    (∃ t, step (writing 0x00000107 State.reset) = .next t ∧ t.streamDone ≠ false) ∧
    (∃ t, step (writing 0x00000005 { State.reset with streamDone := true }) = .next t ∧ t.streamDone ≠ true) :=
  ⟨⟨_, rfl, by decide⟩, ⟨_, rfl, by decide⟩⟩

theorem test_witness_LatchedKeyChangesOnlyAtChachaInit :
    ∃ t, step (writing 0x00000005 { State.reset with key := initialHash }) = .next t ∧ t.smk ≠ State.reset.smk :=
  ⟨_, rfl, by decide⟩

/-- KS changes: the keystream of the unknown nonce words is not both all 0 and all 1, so one of two old buffers differs. -/
theorem test_witness_KeystreamBufferIsWrittenByItsCommandsOnly : ∃ (s t : State),
    s.pending = .memWrite 0x004 4 0x00000006 :: [] ∧ step s = .next t ∧ t.ks ≠ s.ks := by
  by_cases h : chachaBlock State.reset.smk 0 0 = Vector.replicate 16 0
  · refine ⟨writing 0x00000006 { State.reset with ks := Vector.replicate 16 1 }, _, rfl, rfl, ?_⟩
    show chachaBlock State.reset.smk 0 0 ≠ Vector.replicate 16 1
    rw [h]
    decide
  · exact ⟨writing 0x00000006 State.reset, _, rfl, rfl, h⟩

theorem test_witness_CommandsWriteOnlyTheirDestinations :
    (∃ t, exec (.shaChunk 64) State.reset = .next t ∧ t.err = State.reset.err) ∧
    ¬ destinations (.shaChunk 64) (.msg 0) ∧ ¬ destinations .chachaBlock (.data 0) ∧ ¬ destinations .nop .status := by
  refine ⟨⟨_, rfl, rfl⟩, ?_, ?_, ?_⟩ <;> simp [destinations]

theorem test_witness_HashAndCipherCommandsCommute : isHashCommand (.shaChunk 64) = true ∧
    isCipherCommand (.chachaXor 1) = true ∧ State.reset.err = false ∧ (Instr.shaChunk 64).wellFormed = true ∧
    (Instr.chachaXor 1).wellFormed = true ∧ State.reset.shaDone = false ∧ State.reset.streamDone = false := by decide

/-- NopDoesNothing, ShaInitStartsASession, ShaCompressCompressesMsgIntoH, KeyFromDigestCopiesTheDigest,
ChachaInitLatchesTheKey and ChachaBlockWritesTheKeystream: the words of the six commands without a length, with N = 1,
have the OPC and are not the command's word; ERR = 0 and ERR = 1. -/
theorem test_witness_fixed_commands : State.reset.err = false ∧ failed.err = true ∧
    ∀ k ∈ [0, 1, 2, 4, 5, 6], (BitVec.ofNat 32 (k + 256)).toNat % 2 ^ 8 = k ∧
      BitVec.ofNat 32 (k + 256) ≠ BitVec.ofNat 32 k := by decide

/-- The boundary lengths of each path of the framer. -/
theorem test_witness_ShaChunkFeedsTheFramer : State.reset.err = false ∧ State.reset.shaDone = false ∧
    (64 : BitVec 7).toNat = 64 ∧ (0 : BitVec 7).toNat ≤ 55 ∧ (55 : BitVec 7).toNat ≤ 55 ∧
    (56 ≤ (56 : BitVec 7).toNat ∧ (56 : BitVec 7).toNat ≤ 63) ∧
    (56 ≤ (63 : BitVec 7).toNat ∧ (63 : BitVec 7).toNat ≤ 63) := by decide

theorem test_witness_LengthAccumulatesByHalves : State.reset.err = false ∧ (64 : BitVec 7).toNat ≤ 64 ∧
    State.reset.shaDone = false := by decide

theorem test_witness_MessageBytesFromNOnAreIgnored : State.reset.err = false ∧ (3 : BitVec 7).toNat ≤ 64 ∧
    State.reset.shaDone = false ∧
    (∀ j, j < (3 : BitVec 7).toNat → byteAt ((Vector.replicate 16 7).set 0 0xde000000) j = byteAt State.reset.msg j) := by
  decide

theorem test_witness_ChachaXorEncryptsAChunk : State.reset.err = false ∧ State.reset.streamDone = false ∧
    1 ≤ (1 : BitVec 7).toNat ∧ (1 : BitVec 7).toNat ≤ 64 ∧ (64 : BitVec 7).toNat ≤ 64 ∧ 0 < (1 : BitVec 7).toNat ∧
    ((1 : BitVec 7).toNat ≤ 63 ∧ 63 < 64) := by decide

theorem test_witness_FullChunkXorsWholeWords : State.reset.err = false ∧ State.reset.streamDone = false := by decide

theorem test_witness_CounterCarriesAndWraps :
    ({ State.reset with ctrLo := 0xFFFFFFFF, ctrHi := 0xFFFFFFFF } : State).ctrHi = 0xFFFFFFFF ∧
    ({ State.reset with ctrLo := 0xFFFFFFFF, ctrHi := 0xFFFFFFFF } : State).ctrLo = 0xFFFFFFFF ∧
    ({ State.reset with ctrLo := 0xFFFFFFFF, ctrHi := 0xFFFFFFFF } : State).err = false ∧
    ({ State.reset with ctrLo := 0xFFFFFFFF, ctrHi := 0xFFFFFFFF } : State).streamDone = false ∧
    1 ≤ (64 : BitVec 7).toNat ∧ (64 : BitVec 7).toNat ≤ 64 := by decide

theorem test_witness_KeystreamDependsOnKeyAndCounterOnly : State.reset.err = false ∧
    ({ State.reset with key := initialHash, lenLo := 3 } : State).err = false ∧
    State.reset.smk = ({ State.reset with key := initialHash, lenLo := 3 } : State).smk ∧
    State.reset.ctrLo = ({ State.reset with key := initialHash, lenLo := 3 } : State).ctrLo ∧
    State.reset.ctrHi = ({ State.reset with key := initialHash, lenLo := 3 } : State).ctrHi := by decide

theorem test_witness_ShiftAndRotationsOnNumbers : 0 < 1 ∧ 31 < 32 := by decide

/-- The first and last index of SigmaFunctionsBitByBit, ChooseAndMajorityBitByBit, ConstantsAreRootsOfPrimes,
ScheduleFollowsTheRecurrence, CompressRunsTheRoundsAndFeedsForward and BlockOfMsgHasLittleEndianLanes. -/
theorem test_witness_bit_and_index_ranges : (0 : Nat) < 32 ∧ 31 < 32 ∧ 63 < 64 ∧ 15 < 16 ∧ 16 ≤ 16 ∧ 3 < 4 := by decide

theorem test_witness_QuarterRoundSteps : (0 : Fin 16) ≠ 4 ∧ (0 : Fin 16) ≠ 8 ∧ (0 : Fin 16) ≠ 12 ∧ (4 : Fin 16) ≠ 8 ∧
    (4 : Fin 16) ≠ 12 ∧ (8 : Fin 16) ≠ 12 ∧ (1 : Fin 16) ≠ 0 ∧ (1 : Fin 16) ≠ 4 ∧ (1 : Fin 16) ≠ 8 ∧ (1 : Fin 16) ≠ 12 := by
  decide

theorem test_witness_HashProgramComputesSha256 : State.reset.ready ∧ 8 * ([] : List Byte).length < 2 ^ 64 ∧
    8 * (List.replicate 64 (0x61 : Byte)).length < 2 ^ 64 := ⟨⟨rfl, rfl⟩, by decide, by decide⟩

theorem test_witness_SetkeyProgramLatchesThePasswordDigest : State.reset.ready ∧
    8 * ([0x61, 0x62, 0x63] : List Byte).length < 2 ^ 64 := ⟨⟨rfl, rfl⟩, by decide⟩

theorem test_witness_StreamDecryptsItself : State.reset.ready ∧ ({ State.reset with ctrLo := 7, streamDone := true } : State).ready ∧
    State.reset.key = ({ State.reset with ctrLo := 7, streamDone := true } : State).key := ⟨⟨rfl, rfl⟩, ⟨rfl, rfl⟩, rfl⟩

end Sys2Proof.Tests
end

namespace Sys2Proof.Proofs
open Sys2Proof.Machine

/-- Settles O6: the step issues the written word on the answered state, and issuing a word that decodes to a command is
that command, also while ERR = 1. -/
theorem stepRunsTheDecodedCommand : Obligations.StepRunsTheDecodedCommand := by
  intro s v i rest hbusy hpending hdecode
  rw [step_issue hbusy hpending]
  exact issue_of_cmd (s.answered rest .writeDone) hdecode

end Sys2Proof.Proofs

namespace Sys2Proof.Proofs
open Sys2Proof Sys2Proof.Machine Sys2Proof.Laws

section RegisterMap
/-! The register map of 20_memory.md R61: `offsetOf` and `regAt` are inverse outside the reserved words. -/

theorem offsetOf_lt_and_aligned (r : Reg) : offsetOf r < 0x200 ∧ offsetOf r % 4 = 0 := by
  cases r with
  | h i | msg i | key i | data i | ks i => simp only [offsetOf]; omega
  | _ => decide

@[simp] theorem regAt_offsetOf (r : Reg) : regAt (offsetOf r) = r := by
  cases r with
  | h i => revert i; decide
  | msg i => revert i; decide
  | key i => revert i; decide
  | data i => revert i; decide
  | ks i => revert i; decide
  | _ => rfl

/-- The map's 128 words, looked up one by one. -/
theorem regAt_word : ∀ k : Fin 128,
    (regAt (4 * k) = .reserved ↔
      (0x038 ≤ 4 * k.val ∧ 4 * k.val ≤ 0x03C) ∨ (0x0B0 ≤ 4 * k.val ∧ 4 * k.val ≤ 0x0BC) ∨ 0x140 ≤ 4 * k.val) ∧
    (regAt (4 * k) ≠ .reserved → offsetOf (regAt (4 * k)) = 4 * k) := by
  decide

theorem regAt_aligned {off : Nat} (ho : off < 0x200) (ha : off % 4 = 0) :
    (regAt off = .reserved ↔ (0x038 ≤ off ∧ off ≤ 0x03C) ∨ (0x0B0 ≤ off ∧ off ≤ 0x0BC) ∨ 0x140 ≤ off) ∧
    (regAt off ≠ .reserved → offsetOf (regAt off) = off) := by
  have hk : 4 * (off / 4) = off := by omega
  have h := regAt_word ⟨off / 4, by omega⟩
  rwa [hk] at h

/-- The only aligned offset of CMD is 0x004. -/
theorem eq_of_regAt_eq_cmd {off : Nat} (ho : off < 0x200) (ha : off % 4 = 0) (h : regAt off = .cmd) :
    off = 0x004 := by
  have hoff := (regAt_aligned ho ha).2 (by simp [h])
  rw [h] at hoff
  exact hoff.symm

end RegisterMap

/-- Settles O18: the two maps are inverse outside the reserved words, whose ranges are read off `regAt`. -/
theorem registerMapHasNoAliases : Obligations.RegisterMapHasNoAliases := by
  refine ⟨fun r => ?_, fun off ho ha => regAt_aligned ho ha⟩
  obtain ⟨hlt, halign⟩ := offsetOf_lt_and_aligned r
  exact ⟨hlt, halign, regAt_offsetOf r⟩

section DecodedWords
/-! A word that decodes to a command is legal and is that command's encoding (30_encoding.md R91, R94, R96). -/

theorem decodeFixed_eq_cmd {i j : Instr} {n : BitVec 7} (h : decodeFixed i n = .cmd j) : n = 0 ∧ j = i := by
  unfold decodeFixed at h
  split at h
  · exact ⟨‹_›, (Decoded.cmd.inj h).symm⟩
  · cases h

theorem decodeSized_eq_cmd {i j : Instr} (h : decodeSized i = .cmd j) : i.wellFormed = true ∧ j = i := by
  unfold decodeSized at h
  split at h
  · exact ⟨‹_›, (Decoded.cmd.inj h).symm⟩
  · cases h

/-- The fields of a word that decodes to a command. -/
theorem fields_of_decode {v : Word} {i : Instr} (h : decode v = .cmd i) :
    reservedOf v = 0 ∧ opcOf v = i.opcode ∧ lengthOf v = i.length ∧ i.wellFormed = true := by
  have opc : ∀ {c : BitVec 8}, (opcOf v).toNat = c.toNat → opcOf v = c := BitVec.eq_of_toNat_eq
  unfold decode at h
  split at h
  case isFalse => cases h
  case isTrue hres =>
    refine ⟨hres, ?_⟩
    split at h
    case h_4 ho =>
      obtain ⟨hwf, rfl⟩ := decodeSized_eq_cmd h
      exact ⟨opc ho, rfl, hwf⟩
    case h_8 ho =>
      obtain ⟨hwf, rfl⟩ := decodeSized_eq_cmd h
      exact ⟨opc ho, rfl, hwf⟩
    case h_9 => cases h
    all_goals
      rename_i ho
      obtain ⟨hn, rfl⟩ := decodeFixed_eq_cmd h
      exact ⟨opc ho, hn, rfl⟩

theorem wellFormed_of_decode {v : Word} {i : Instr} (h : decode v = .cmd i) : i.wellFormed = true := by
  obtain ⟨_, _, _, hwf⟩ := fields_of_decode h
  exact hwf

theorem encode_of_decode {v : Word} {i : Instr} (h : decode v = .cmd i) : encode i = v := by
  obtain ⟨hr, ho, hl, _⟩ := fields_of_decode h
  exact eq_of_fields (by simp [ho]) (by simp [hl]) (by simp [hr])

end DecodedWords

section StepOutcomes
/-! What one step with an event can do to the flags, the error record, SMK and KS, said once: the invariant and the
whole-machine rules are read off the five cases of `StepOutcome`. -/

/-- The parts of the state that no register write reaches: BUSY, the DONE flags, the error record, SMK and KS. -/
structure SameFlagsAndHidden (s t : State) : Prop where
  busy : t.busy = s.busy
  shaDone : t.shaDone = s.shaDone
  streamDone : t.streamDone = s.streamDone
  err : t.err = s.err
  errCode : t.errCode = s.errCode
  errCmd : t.errCmd = s.errCmd
  smk : t.smk = s.smk
  ks : t.ks = s.ks

theorem SameFlagsAndHidden.answered (s : State) (rest : List HostEvent) (r : Response) :
    SameFlagsAndHidden s (s.answered rest r) :=
  ⟨rfl, rfl, rfl, rfl, rfl, rfl, rfl, rfl⟩

/-- The outcomes of a step whose event is `e`, with `rest` still queued. -/
inductive StepOutcome (s : State) (e : HostEvent) (rest : List HostEvent) : State → Prop where
  /-- A read, a bus error, an ignored write or command, or the write of an RW register. -/
  | access {t : State} (h : SameFlagsAndHidden s t) : StepOutcome s e rest t
  /-- The reset input (70_reset_and_hazards.md R250). -/
  | reset (h : e = .reset) : StepOutcome s e rest (resetEvent (s.withPending rest))
  /-- The error clear (60_exceptions.md R229). -/
  | clear : StepOutcome s e rest (clearError (s.answered rest .writeDone))
  /-- Error entry, with a record that is right (R227). -/
  | raise {c : ErrorCode} {v : Word} (herr : s.err = false)
      (hrecord : (raiseError c v (s.answered rest .writeDone)).errorRecordOk) :
      StepOutcome s e rest (raiseError c v (s.answered rest .writeDone))
  /-- A legal command that meets no error. -/
  | command {i : Instr} (herr : s.err = false) (hwf : i.wellFormed = true) (hissue : e.issues (encode i)) :
      StepOutcome s e rest (effect i (s.answered rest .writeDone))

/-- The error a decoded command meets is recorded with a word that raises it. -/
theorem errorRecordOk_raiseError {v : Word} {i : Instr} {s : State} {c : ErrorCode} (hd : decode v = .cmd i)
    (hc : commandError i s = some c) : (raiseError c v s).errorRecordOk := by
  have hwf := wellFormed_of_decode hd
  cases i with
  | shaChunk n =>
    have hn : ¬ 64 < n.toNat := by simpa [Instr.wellFormed] using hwf
    rw [commandError_shaChunk, if_neg hn] at hc
    split at hc
    · cases hc
      exact ⟨‹_›, n, hd⟩
    · cases hc
  | chachaXor n =>
    have hn : ¬ (n.toNat = 0 ∨ 64 < n.toNat) := by
      simp only [Instr.wellFormed, decide_eq_true_eq] at hwf
      omega
    rw [commandError_chachaXor, if_neg hn] at hc
    split at hc
    · cases hc
      exact ⟨‹_›, n, hd⟩
    · cases hc
  | _ => cases hc

/-- The outcome of a CMD write. -/
theorem stepOutcome_of_issue {s t : State} {v : Word} {rest : List HostEvent}
    (h : issue v (s.answered rest .writeDone) = .next t) : StepOutcome s (.memWrite 0x004 4 v) rest t := by
  obtain ⟨_, rfl⟩ | ⟨herr, hd, rfl⟩ | ⟨herr, hd, rfl⟩ | ⟨_, i, hd, hx⟩ := issue_cases h
  · exact .access (.answered s rest _)
  · exact .raise herr hd
  · exact .raise herr hd
  · have hv := encode_of_decode hd
    obtain ⟨_, rfl⟩ | ⟨herr, c, hc, rfl⟩ | ⟨herr, _, rfl⟩ := exec_cases hx
    · exact .access (.answered s rest _)
    · exact .raise herr (hv ▸ errorRecordOk_raiseError hd hc)
    · exact .command herr (wellFormed_of_decode hd) (congrArg _ hv.symm)

/-- The outcome of a legal write. -/
theorem stepOutcome_of_writeReg {s t : State} {off : Nat} {v : Word} {rest : List HostEvent} (ho : off < 0x200)
    (ha : off % 4 = 0) (h : writeReg (regAt off) v (s.answered rest .writeDone) = .next t) :
    StepOutcome s (.memWrite off 4 v) rest t := by
  cases hr : regAt off with
  | cmd =>
    rw [hr] at h
    obtain rfl := eq_of_regAt_eq_cmd ho ha hr
    exact stepOutcome_of_issue h
  | status =>
    rw [hr] at h
    obtain rfl := Host.Outcome.next.inj h
    split
    · exact .clear
    · exact .access (.answered s rest _)
  | _ =>
    rw [hr] at h
    obtain rfl := Host.Outcome.next.inj h
    exact .access ⟨rfl, rfl, rfl, rfl, rfl, rfl, rfl, rfl⟩

theorem stepOutcome_of_step {s t : State} {e : HostEvent} {rest : List HostEvent} (hp : s.pending = e :: rest)
    (h : step s = .next t) : StepOutcome s e rest t := by
  rw [step_of_pending hp] at h
  obtain ⟨off, n, rfl, _, ⟨_, rfl⟩ | ⟨_, rfl⟩⟩ | ⟨off, n, v, rfl, ho, _, ⟨_, rfl⟩ | ⟨hbus, hw⟩⟩ | ⟨rfl, rfl⟩ :=
    perform_cases h
  · exact .access (.answered s rest _)
  · exact .access (.answered s rest _)
  · exact .access (.answered s rest _)
  · obtain ⟨rfl, ha⟩ := isBusError_false.1 hbus
    exact stepOutcome_of_writeReg ho ha hw
  · exact .reset rfl

end StepOutcomes

section Invariant

theorem errorRecordOk_of_err_false {s : State} (h : s.err = false) :
    s.errorRecordOk ↔ s.errCode = .none ∧ s.errCmd = 0 := by
  simp [State.errorRecordOk, h]

/-- The invariant speaks of the flags and the error record only. -/
theorem SameFlagsAndHidden.inv {s t : State} (h : SameFlagsAndHidden s t) (hs : s.Inv) : t.Inv := by
  obtain ⟨hbusy, hrecord⟩ := hs
  refine ⟨h.busy.trans hbusy, ?_⟩
  simpa only [State.errorRecordOk, h.err, h.errCode, h.errCmd, h.shaDone, h.streamDone] using hrecord

theorem reset_inv : State.reset.Inv := ⟨rfl, rfl, rfl⟩

/-- A command that meets no error keeps the clear record. -/
theorem effect_inv {s : State} (i : Instr) (herr : s.err = false) (hs : s.Inv) : (effect i s).Inv := by
  obtain ⟨hbusy, hrecord⟩ := hs
  obtain ⟨hb, _, _, he, hcode, hcmd⟩ := effect_host i s
  rw [errorRecordOk_of_err_false herr] at hrecord
  exact ⟨hb.trans hbusy, (errorRecordOk_of_err_false (he.trans herr)).2 (by rwa [hcode, hcmd])⟩

theorem StepOutcome.inv {s t : State} {e : HostEvent} {rest : List HostEvent} (h : StepOutcome s e rest t)
    (hs : s.Inv) : t.Inv := by
  cases h with
  | access hsame => exact hsame.inv hs
  | reset => exact reset_inv
  | clear => exact ⟨hs.1, rfl, rfl⟩
  | raise _ hrecord => exact ⟨hs.1, hrecord⟩
  | command herr _ _ => exact effect_inv (s := s.answered rest .writeDone) _ herr hs

end Invariant

/-- Settles O27: an idle step changes nothing, and each outcome of a step with an event keeps the invariant. -/
theorem invariantKeptByEveryStep : Obligations.InvariantKeptByEveryStep := by
  intro s t hs hstep
  cases hp : s.pending with
  | nil =>
    have hidle : step s = .next s := by simp [step, hp]
    obtain rfl := Host.Outcome.next.inj (hidle.symm.trans hstep)
    exact hs
  | cons e rest => exact (stepOutcome_of_step hp hstep).inv hs

/-- Settles O26: no flag is set and the error record is clear. -/
theorem invariantAtReset : Obligations.InvariantAtReset := reset_inv

section StatusWord
/-! The fields of STATUS as a read composes it (10_state.md R23). -/

@[simp] theorem getLsbD_flagWord (b : Bool) (k : Nat) : (flagWord b).getLsbD k = (decide (k = 0) && b) := by
  cases b <;> simp [flagWord, BitVec.getLsbD_one]

@[simp] theorem getElem_flagWord (b : Bool) (k : Nat) (hk : k < 32) : (flagWord b)[k] = (decide (k = 0) && b) := by
  rw [← BitVec.getLsbD_eq_getElem hk, getLsbD_flagWord]

theorem statusWord_bit0 (s : State) : (statusWord s).getLsbD 0 = s.busy := by
  simp [statusWord]

theorem statusWord_bit3 (s : State) : (statusWord s).getLsbD 3 = s.err := by
  simp [statusWord]

/-- Above its four flags STATUS is the error code. -/
theorem statusWord_shift (s : State) : statusWord s >>> 4 = s.errCode.bits.setWidth 32 := by
  ext k hk
  have herr : 4 + k - 3 ≠ 0 := by omega
  have hstream : 4 + k - 2 ≠ 0 := by omega
  by_cases hcode : k < 4
  · have hin : 4 + k < 32 := by omega
    simp [statusWord, herr, hstream, hin]
  · have hzero : s.errCode.bits.getLsbD k = false := BitVec.getLsbD_of_ge _ _ (by omega)
    simp [statusWord, herr, hstream, hzero]

theorem statusWord_div (s : State) : (statusWord s).toNat / 16 = s.errCode.bits.toNat := by
  have h := congrArg BitVec.toNat (statusWord_shift s)
  rwa [BitVec.toNat_ushiftRight, Nat.shiftRight_eq_div_pow, BitVec.toNat_setWidth_of_le (by decide)] at h

theorem errorCode_bits_le (c : ErrorCode) : c.bits.toNat ≤ 4 := by
  cases c <;> decide

theorem errorCode_bits_eq_zero (c : ErrorCode) : c.bits.toNat = 0 ↔ c = .none := by
  cases c <;> decide

/-- Under the invariant the recorded code is that of no error exactly if ERR = 0. -/
theorem errCode_eq_none_iff {s : State} (hs : s.Inv) : s.errCode = .none ↔ s.err = false := by
  obtain ⟨_, hrecord⟩ := hs
  cases herr : s.err with
  | false =>
    obtain ⟨hcode, _⟩ := (errorRecordOk_of_err_false herr).1 hrecord
    simp [hcode]
  | true =>
    have hcode : s.errCode ≠ .none := by
      intro hcode
      simp [State.errorRecordOk, herr, hcode] at hrecord
    simp [hcode]

end StatusWord

/-- Settles O28: the word read is the one composed from the fields, and the invariant ties the code to ERR. -/
theorem statusReadsAreLegal : Obligations.StatusReadsAreLegal := by
  intro s hs
  refine ⟨statusWord s, readsAs_of_mapped hs.1 (by decide) (by decide), ?_, ?_, ?_⟩
  · rw [statusWord_bit0, hs.1]
  · rw [statusWord_div, statusWord_bit3, errorCode_bits_eq_zero, errCode_eq_none_iff hs]
  · rw [statusWord_div]
    exact errorCode_bits_le _

section WholeMachineRules
/-! Which commands change a DONE flag, SMK and KS, and how. -/

theorem sealedBy_of_ne {n : Nat} {flag : Bool} (h : sealedBy n flag ≠ flag) : n < 64 ∧ sealedBy n flag = true := by
  unfold sealedBy at h ⊢
  split at h
  · exact ⟨‹_›, if_pos ‹_›⟩
  · exact absurd rfl h

theorem effect_shaDone_of_ne {i : Instr} {s : State} (h : (effect i s).shaDone ≠ s.shaDone) :
    (i = .shaInit ∧ (effect i s).shaDone = false) ∨
    ∃ n : BitVec 7, i = .shaChunk n ∧ n.toNat < 64 ∧ (effect i s).shaDone = true := by
  cases i with
  | shaInit => exact .inl ⟨rfl, rfl⟩
  | shaChunk n => exact .inr ⟨n, rfl, sealedBy_of_ne h⟩
  | _ => simp [effect] at h

theorem effect_streamDone_of_ne {i : Instr} {s : State} (h : (effect i s).streamDone ≠ s.streamDone) :
    (i = .chachaInit ∧ (effect i s).streamDone = false) ∨
    ∃ n : BitVec 7, i = .chachaXor n ∧ n.toNat < 64 ∧ (effect i s).streamDone = true := by
  cases i with
  | chachaInit => exact .inl ⟨rfl, rfl⟩
  | chachaXor n => exact .inr ⟨n, rfl, sealedBy_of_ne h⟩
  | _ => simp [effect] at h

theorem effect_smk_of_ne {i : Instr} {s : State} (h : (effect i s).smk ≠ s.smk) :
    i = .chachaInit ∧ (effect i s).smk = s.key := by
  cases i with
  | chachaInit => exact ⟨rfl, rfl⟩
  | _ => simp [effect] at h

theorem effect_ks_of_ne {i : Instr} {s : State} (h : (effect i s).ks ≠ s.ks) :
    (effect i s).ks = chachaBlock s.smk s.ctrLo s.ctrHi ∧ (i = .chachaBlock ∨ ∃ n : BitVec 7, i = .chachaXor n) := by
  cases i with
  | chachaBlock => exact ⟨rfl, .inl rfl⟩
  | chachaXor n => exact ⟨rfl, .inr ⟨n, rfl⟩⟩
  | _ => simp [effect] at h

theorem wellFormed_chachaXor {n : BitVec 7} (h : (Instr.chachaXor n).wellFormed = true) :
    1 ≤ n.toNat ∧ n.toNat ≤ 64 := by
  simpa [Instr.wellFormed] using h

end WholeMachineRules

/-- Settles O29: of the outcomes of a step only reset and a command can change SHA_DONE. -/
theorem shaDoneChangesOnlyByItsCommands : Obligations.ShaDoneChangesOnlyByItsCommands := by
  intro s t e rest hp hstep hne
  cases stepOutcome_of_step hp hstep with
  | access h => exact absurd h.shaDone hne
  | reset he => exact .inr ⟨rfl, .inl he⟩
  | clear => exact absurd rfl hne
  | raise => exact absurd rfl hne
  | command herr _ hissue =>
    obtain ⟨rfl, hclear⟩ | ⟨n, rfl, hn, hset⟩ := effect_shaDone_of_ne (s := s.answered rest .writeDone) hne
    · exact .inr ⟨hclear, .inr ⟨herr, hissue⟩⟩
    · exact .inl ⟨hset, herr, n, hn, hissue⟩

/-- Settles O30: of the outcomes of a step only reset and a command can change STREAM_DONE. -/
theorem streamDoneChangesOnlyByItsCommands : Obligations.StreamDoneChangesOnlyByItsCommands := by
  intro s t e rest hp hstep hne
  cases stepOutcome_of_step hp hstep with
  | access h => exact absurd h.streamDone hne
  | reset he => exact .inr ⟨rfl, .inl he⟩
  | clear => exact absurd rfl hne
  | raise => exact absurd rfl hne
  | command herr hwf hissue =>
    obtain ⟨rfl, hclear⟩ | ⟨n, rfl, hn, hset⟩ := effect_streamDone_of_ne (s := s.answered rest .writeDone) hne
    · exact .inr ⟨hclear, .inr ⟨herr, hissue⟩⟩
    · exact .inl ⟨hset, herr, n, (wellFormed_chachaXor hwf).1, hn, hissue⟩

/-- Settles O31: of the outcomes of a step only reset and CHACHA_INIT can change SMK. -/
theorem latchedKeyChangesOnlyAtChachaInit : Obligations.LatchedKeyChangesOnlyAtChachaInit := by
  intro s t e rest hp hstep hne
  cases stepOutcome_of_step hp hstep with
  | access h => exact absurd h.smk hne
  | reset he => exact .inl he
  | clear => exact absurd rfl hne
  | raise => exact absurd rfl hne
  | command herr _ hissue =>
    obtain ⟨rfl, hkey⟩ := effect_smk_of_ne (s := s.answered rest .writeDone) hne
    exact .inr ⟨herr, hissue, hkey⟩

/-- Settles O32: of the outcomes of a step only reset and the two keystream commands can change KS. -/
theorem keystreamBufferIsWrittenByItsCommandsOnly : Obligations.KeystreamBufferIsWrittenByItsCommandsOnly := by
  intro s t e rest hp hstep hne
  cases stepOutcome_of_step hp hstep with
  | access h => exact absurd h.ks hne
  | reset he => exact .inl he
  | clear => exact absurd rfl hne
  | raise => exact absurd rfl hne
  | command herr hwf hissue =>
    obtain ⟨hks, rfl | ⟨n, rfl⟩⟩ := effect_ks_of_ne (s := s.answered rest .writeDone) hne
    · exact .inr ⟨herr, hks, .inl hissue⟩
    · obtain ⟨hlow, hhigh⟩ := wellFormed_chachaXor hwf
      exact .inr ⟨herr, hks, .inr ⟨n, hlow, hhigh, hissue⟩⟩

section CommandFrame

/-- A register that is not a destination of the command reads as before. -/
theorem readReg_effect {i : Instr} {r : Reg} (s : State) (hr : ¬ destinations i r) :
    readReg r (effect i s) = readReg r s := by
  cases i with
  | nop => rfl
  | shaInit =>
    cases r with
    | h k => exact absurd (.inl ⟨k, rfl⟩) hr
    | lenLo => exact absurd (.inr (.inl rfl)) hr
    | lenHi => exact absurd (.inr (.inr (.inl rfl))) hr
    | status => exact absurd (.inr (.inr (.inr rfl))) hr
    | _ => simp only [readReg, effect]
  | shaCompress =>
    cases r with
    | h k => exact absurd ⟨k, rfl⟩ hr
    | _ => simp only [readReg, effect, statusWord]
  | shaChunk n =>
    cases r with
    | h k => exact absurd (.inl ⟨k, rfl⟩) hr
    | lenLo => exact absurd (.inr (.inl rfl)) hr
    | lenHi => exact absurd (.inr (.inr (.inl rfl))) hr
    | status => exact absurd (.inr (.inr (.inr rfl))) hr
    | _ => simp only [readReg, effect]
  | keyFromDigest =>
    cases r with
    | key k => exact absurd ⟨k, rfl⟩ hr
    | _ => simp only [readReg, effect, statusWord]
  | chachaInit =>
    cases r with
    | ctrLo => exact absurd (.inl rfl) hr
    | ctrHi => exact absurd (.inr (.inl rfl)) hr
    | status => exact absurd (.inr (.inr rfl)) hr
    | _ => simp only [readReg, effect]
  | chachaBlock =>
    cases r with
    | ks k => exact absurd ⟨k, rfl⟩ hr
    | _ => simp only [readReg, effect, statusWord]
  | chachaXor n =>
    cases r with
    | ks k => exact absurd (.inl ⟨k, rfl⟩) hr
    | data k => exact absurd (.inr (.inl ⟨k, rfl⟩)) hr
    | ctrLo => exact absurd (.inr (.inr (.inl rfl))) hr
    | ctrHi => exact absurd (.inr (.inr (.inr (.inl rfl)))) hr
    | status => exact absurd (.inr (.inr (.inr (.inr rfl)))) hr
    | _ => simp only [readReg, effect]

theorem effect_smk {i : Instr} (s : State) (h : i ≠ .chachaInit) : (effect i s).smk = s.smk := by
  by_contra hne
  exact h (effect_smk_of_ne hne).1

end CommandFrame

/-- Settles O33: an ignored command changes nothing, error entry sets ERR, and the effect keeps to the destinations. -/
theorem commandsWriteOnlyTheirDestinations : Obligations.CommandsWriteOnlyTheirDestinations := by
  intro i s t hx herr
  obtain ⟨_, rfl⟩ | ⟨hs, c, _, rfl⟩ | ⟨_, _, rfl⟩ := exec_cases hx
  · exact ⟨fun _ _ => rfl, fun _ => rfl, rfl, rfl, rfl⟩
  · simp [hs] at herr
  · obtain ⟨hbusy, hpending, hresponses, _⟩ := effect_host i s
    exact ⟨fun _ hr => readReg_effect s hr, effect_smk s, hbusy, hpending, hresponses⟩

section ResetState

/-- Reading a register of the reset state at its offset. -/
theorem reset_readsAs (r : Reg) : State.reset.readsAs (offsetOf r) (readReg r State.reset) := by
  obtain ⟨hlt, halign⟩ := offsetOf_lt_and_aligned r
  simpa using readsAs_of_mapped (s := State.reset) rfl hlt halign

end ResetState

/-- Settles O23: the fields are the table's, the four registers without state read as their constants, and the effect of
the two INIT commands on this state writes what it already holds. -/
theorem resetValues : Obligations.ResetValues := by
  have zero16 : ∀ i : Fin 16, (Vector.replicate 16 (0 : Word))[i] = 0 := by simp
  have zero8 : ∀ i : Fin 8, (Vector.replicate 8 (0 : Word))[i] = 0 := by simp
  exact ⟨rfl, rfl, rfl, rfl, rfl, rfl, rfl, rfl, rfl, zero16, fun i => ⟨zero8 i, zero8 i⟩, rfl, rfl,
    fun i => ⟨zero16 i, zero16 i⟩, reset_readsAs .id, reset_readsAs .cmd, reset_readsAs .nonce0, reset_readsAs .nonce1,
    exec_of_ok rfl rfl, exec_of_ok rfl rfl⟩

/-- Settles O25: both commands meet no error, and their effects write the reset values. -/
theorem initsRestoreTheResetState : Obligations.InitsRestoreTheResetState := by
  intro s herr hkey
  refine ⟨effect .shaInit s, exec_of_ok herr rfl, ?_⟩
  rw [exec_of_ok (by exact herr) rfl]
  simp [effect, State.reset, hkey, herr]

/-- Settles O47: the block is a function of SMK and CTR. -/
theorem keystreamDependsOnKeyAndCounterOnly : Obligations.KeystreamDependsOnKeyAndCounterOnly := by
  intro s r hs hr hsmk hlo hhi
  refine ⟨effect .chachaBlock s, effect .chachaBlock r, exec_of_ok hs rfl, exec_of_ok hr rfl, ?_⟩
  simp only [effect, hsmk, hlo, hhi]

end Sys2Proof.Proofs

namespace Sys2Proof.Proofs
open Sys2Proof Sys2Proof.Machine Sys2Proof.Laws

section WindowReads
/-! What a read of each register shows (20_memory.md R65). -/

/-- Reading a named register at its own offset. -/
theorem readsAs_offsetOf {s : State} (hb : s.busy = false) (r : Reg) : s.readsAs (offsetOf r) (readReg r s) := by
  obtain ⟨hlt, halign⟩ := offsetOf_lt_and_aligned r
  simpa using readsAs_of_mapped hb hlt halign

/-- The reserved words read 0. -/
theorem readsAs_zero_of_reserved {s : State} {off : Nat} (hb : s.busy = false) (ho : off < 0x200) (ha : off % 4 = 0)
    (hr : regAt off = .reserved) : s.readsAs off 0 := by
  simpa [hr, readReg] using readsAs_of_mapped hb ho ha

/-- The fields of STATUS do not overlap, so that their union is their sum. -/
theorem statusFields_sum : ∀ (code : BitVec 4) (err stream sha busy : Bool),
    (code.setWidth 32 <<< 4) ||| (flagWord err <<< 3) ||| (flagWord stream <<< 2) ||| (flagWord sha <<< 1) |||
      flagWord busy =
    BitVec.ofNat 32 (code.toNat * 16 + err.toNat * 8 + stream.toNat * 4 + sha.toNat * 2 + busy.toNat) := by
  decide

theorem statusWord_eq_sum {s : State} (hb : s.busy = false) :
    statusWord s = BitVec.ofNat 32 (s.errCode.bits.toNat * 16 + s.err.toNat * 8 + s.streamDone.toNat * 4 +
      s.shaDone.toNat * 2) := by
  rw [statusWord, hb]
  exact statusFields_sum _ _ _ _ false

end WindowReads

/-- Settles O15: a named register is read at its own offset, and the other offsets are those of the reserved words. -/
theorem readsReturnTheMappedRegister : Obligations.ReadsReturnTheMappedRegister := by
  intro s hb
  have reg := readsAs_offsetOf hb
  have reserved : ∀ off, off < 0x200 → off % 4 = 0 →
      (0x038 ≤ off ∧ off ≤ 0x03C) ∨ (0x0B0 ≤ off ∧ off ≤ 0x0BC) ∨ 0x140 ≤ off → s.readsAs off 0 :=
    fun off ho ha hrange => readsAs_zero_of_reserved hb ho ha ((regAt_aligned ho ha).1.2 hrange)
  have status := reg .status
  rw [readReg, statusWord_eq_sum hb] at status
  exact ⟨reg .id, reg .cmd, status, reg .errcmd, fun i => reg (.h i), reg .lenLo, reg .lenHi,
    reserved _ (by decide) (by decide) (by decide), reserved _ (by decide) (by decide) (by decide),
    fun i => reg (.msg i), fun i => reg (.key i), reg .ctrLo, reg .ctrHi, reg .nonce0, reg .nonce1,
    fun i => reserved _ (by omega) (by omega) (by omega), fun i => reg (.data i), fun i => reg (.ks i),
    fun i => reserved _ (by omega) (by omega) (by omega)⟩

section WindowWrites
/-! What a write of each register but CMD and STATUS leaves (20_memory.md R66). -/

/-- The state that a write of v to a register other than CMD and STATUS leaves. -/
def written (r : Reg) (v : Word) (s : State) : State :=
  match r with
  | .h i => { s with h := s.h.set i v }
  | .lenLo => { s with lenLo := v }
  | .lenHi => { s with lenHi := v }
  | .msg i => { s with msg := s.msg.set i v }
  | .key i => { s with key := s.key.set i v }
  | .ctrLo => { s with ctrLo := v }
  | .ctrHi => { s with ctrHi := v }
  | .data i => { s with data := s.data.set i v }
  | _ => s

theorem writeReg_eq_written {r : Reg} (v : Word) (s : State) (hcmd : r ≠ .cmd) (hstatus : r ≠ .status) :
    writeReg r v s = .next (written r v s) := by
  cases r with
  | cmd => exact absurd rfl hcmd
  | status => exact absurd rfl hstatus
  | _ => rfl

theorem written_answered (r : Reg) (v : Word) (s : State) (rest : List HostEvent) (a : Response) :
    written r v (s.answered rest a) = (written r v s).answered rest a := by
  cases r <;> rfl

theorem written_smk (r : Reg) (v : Word) (s : State) : (written r v s).smk = s.smk := by
  cases r <;> rfl

theorem written_responses (r : Reg) (v : Word) (s : State) : (written r v s).responses = s.responses := by
  cases r <;> rfl

theorem written_of_not_writable {r : Reg} (v : Word) (s : State) (hr : r.writable = false) : written r v s = s := by
  cases r with
  | h i | msg i | key i | data i | lenLo | lenHi | ctrLo | ctrHi => cases hr
  | _ => rfl

/-- A writable register takes all 32 bits. -/
theorem readReg_written_same {r : Reg} (v : Word) (s : State) (hr : r.writable = true) :
    readReg r (written r v s) = v := by
  cases r with
  | h i | msg i | key i | data i => simp [readReg, written]
  | lenLo | lenHi | ctrLo | ctrHi => rfl
  | _ => cases hr

/-- Another index of a register array keeps its word. -/
theorem getElem_set_of_fin_ne {n : Nat} (xs : Vector Word n) (v : Word) {i k : Fin n} (h : k ≠ i) :
    (xs.set i v)[k] = xs[k] :=
  Vector.getElem_set_ne i.isLt k.isLt fun e => h (Fin.ext e.symm)

/-- Another register reads as before. -/
theorem readReg_written_of_ne {r r' : Reg} (v : Word) (s : State) (h : r' ≠ r) :
    readReg r' (written r v s) = readReg r' s := by
  cases r with
  | h i =>
    cases r' with
    | h k => exact getElem_set_of_fin_ne s.h v fun e => h (congrArg Reg.h e)
    | _ => rfl
  | msg i =>
    cases r' with
    | msg k => exact getElem_set_of_fin_ne s.msg v fun e => h (congrArg Reg.msg e)
    | _ => rfl
  | key i =>
    cases r' with
    | key k => exact getElem_set_of_fin_ne s.key v fun e => h (congrArg Reg.key e)
    | _ => rfl
  | data i =>
    cases r' with
    | data k => exact getElem_set_of_fin_ne s.data v fun e => h (congrArg Reg.data e)
    | _ => rfl
  | lenLo | lenHi | ctrLo | ctrHi => cases r' <;> simp [readReg, written, statusWord] at h ⊢
  | _ => rfl

/-- The aligned offset of a register that is not reserved. -/
theorem eq_offsetOf_of_regAt_eq {off : Nat} {r : Reg} (ho : off < 0x200) (ha : off % 4 = 0) (h : regAt off = r)
    (hr : r ≠ .reserved) : off = offsetOf r := by
  subst h
  exact ((regAt_aligned ho ha).2 hr).symm

/-- A write keeps what is read at every other offset: two offsets of one register are reserved, which no write
changes. -/
theorem readReg_written_of_off_ne {off off' : Nat} (v : Word) (s : State) (ho : off < 0x200) (ha : off % 4 = 0)
    (ho' : off' < 0x200) (ha' : off' % 4 = 0) (hne : off' ≠ off) :
    readReg (regAt off') (written (regAt off) v s) = readReg (regAt off') s := by
  by_cases hsame : regAt off' = regAt off
  · have hreserved : regAt off = .reserved := by
      by_contra hr
      exact hne ((eq_offsetOf_of_regAt_eq ho' ha' hsame hr).trans (eq_offsetOf_of_regAt_eq ho ha rfl hr).symm)
    rw [hreserved]
    rfl
  · exact readReg_written_of_ne v s hsame

/-- A legal write outside CMD and STATUS. -/
theorem writesTo_written {s : State} {off : Nat} (v : Word) (hb : s.busy = false) (ho : off < 0x200)
    (ha : off % 4 = 0) (hcmd : off ≠ 0x004) (hstatus : off ≠ 0x008) :
    s.writesTo off v (written (regAt off) v s) := by
  refine writesTo_of_writeReg hb ho ha fun rest => ?_
  rw [← written_answered]
  exact writeReg_eq_written v _ (fun h => hcmd (eq_offsetOf_of_regAt_eq ho ha h (by decide)))
    (fun h => hstatus (eq_offsetOf_of_regAt_eq ho ha h (by decide)))

/-- A write to STATUS is the error clear if its bit 3 is set, and nothing otherwise (60_exceptions.md R229). -/
theorem writesTo_status {s : State} (v : Word) (hb : s.busy = false) :
    s.writesTo 0x008 v (if v.getLsbD 3 then clearError s else s) := by
  refine writesTo_of_writeReg hb (by decide) (by decide) fun rest => ?_
  change Host.Outcome.next _ = _
  split <;> rfl

end WindowWrites

/-- Settles O16: outside CMD and STATUS a write leaves `written`, whose frame the lemmas above give. -/
theorem writesActByRegisterClass : Obligations.WritesActByRegisterClass := by
  intro s off v hb ho ha
  refine ⟨fun hcmd hstatus => ⟨written (regAt off) v s, writesTo_written v hb ho ha hcmd hstatus, written_smk _ v s,
    written_responses _ v s, fun r hr => readReg_written_of_ne v s hr,
    fun off' ho' ha' hne => readReg_written_of_off_ne v s ho ha ho' ha' hne, readReg_written_same v s,
    written_of_not_writable v s⟩, ?_, ?_⟩
  · rintro rfl
    exact writesTo_status v hb
  · rintro rfl rest
    exact step_issue hb rfl

/-- Settles O21, by induction on the events: the step performs the first one with the others still queued, and the
sequence performs it with none queued, which answers the same up to the queue. -/
theorem eventsArePerformedInOrder : Obligations.EventsArePerformedInOrder := by
  intro es
  induction es with
  | nil => exact fun s => rfl
  | cons e es ih =>
    intro s
    simp only [List.length_cons, Host.Core.run, Host.Check.core_step, performAll]
    rw [step_of_pending rfl, withPending_withPending, perform_withPending e s es, perform_withPending e s []]
    cases perform e s with
    | next t => exact ih t
    | fault r => rfl
    | refused r => rfl

section BusErrors
/-! Accesses of a wrong width or alignment (20_memory.md R62 to R64). -/

theorem not_windowSize_le {off : Nat} (ho : off < 0x200) : ¬ Config.windowSize ≤ off := Nat.not_le.2 ho

theorem isBusError_true {off n : Nat} : isBusError off n = true ↔ n ≠ 4 ∨ off % 4 ≠ 0 := by
  simp [isBusError]

theorem perform_read_busError {off n : Nat} {s : State} (hb : s.busy = false) (ho : off < 0x200)
    (hbus : isBusError off n = true) : perform (.memRead off n) s = .next (respond (.readBusError 0) s) := by
  simp [perform, hb, not_windowSize_le ho, hbus]

theorem perform_write_busError {off n : Nat} {s : State} (v : Word) (hb : s.busy = false) (ho : off < 0x200)
    (hbus : isBusError off n = true) : perform (.memWrite off n v) s = .next (respond .writeBusError s) := by
  simp [perform, hb, not_windowSize_le ho, hbus]

end BusErrors

/-- Settles O17: both accesses meet the bus error check before anything of the CORE is read or written. -/
theorem busErrorsChangeNothing : Obligations.BusErrorsChangeNothing := by
  intro s off n v rest hb ho hbad
  have hbus := isBusError_true.2 hbad
  rw [step_of_pending rfl, step_of_pending rfl]
  exact ⟨perform_read_busError (s := s.withPending rest) hb ho hbus,
    perform_write_busError (s := s.withPending rest) v hb ho hbus⟩

section NoStops
/-! With BUSY = 0 an event inside the window never stops the machine, and no event sets BUSY. -/

theorem exists_exec_eq_next (i : Instr) (s : State) : ∃ t, exec i s = .next t := by
  rw [exec_eq_runCommand]
  rcases Bool.eq_false_or_eq_true s.err with herr | herr
  · exact ⟨_, runCommand_of_err herr⟩
  · cases hc : commandError i s with
    | none => exact ⟨_, runCommand_of_ok herr hc⟩
    | some c => exact ⟨_, runCommand_of_error herr hc⟩

theorem exists_issue_eq_next (v : Word) (s : State) : ∃ t, issue v s = .next t := by
  unfold issue
  split
  · exact ⟨s, rfl⟩
  · split
    · exact ⟨_, rfl⟩
    · exact ⟨_, rfl⟩
    · exact exists_exec_eq_next _ s

theorem exists_writeReg_eq_next (r : Reg) (v : Word) (s : State) : ∃ t, writeReg r v s = .next t := by
  cases r with
  | cmd => exact exists_issue_eq_next v s
  | _ => exact ⟨_, rfl⟩

theorem exists_perform_eq_next {e : HostEvent} {s : State} (hb : s.busy = false) (he : e.inWindow) :
    ∃ t, perform e s = .next t := by
  cases e with
  | memRead off n =>
    cases hbus : isBusError off n with
    | true => exact ⟨_, perform_read_busError hb he hbus⟩
    | false =>
      obtain ⟨rfl, ha⟩ := isBusError_false.1 hbus
      exact ⟨_, perform_read hb he ha⟩
  | memWrite off n v =>
    cases hbus : isBusError off n with
    | true => exact ⟨_, perform_write_busError v hb he hbus⟩
    | false =>
      obtain ⟨rfl, ha⟩ := isBusError_false.1 hbus
      rw [perform_write v hb he ha]
      exact exists_writeReg_eq_next _ v _
  | reset => exact ⟨_, rfl⟩

theorem StepOutcome.busy_false {s t : State} {e : HostEvent} {rest : List HostEvent} (h : StepOutcome s e rest t)
    (hb : s.busy = false) : t.busy = false := by
  cases h with
  | access hsame => exact hsame.busy.trans hb
  | reset => rfl
  | clear => exact hb
  | raise => exact hb
  | command => exact (effect_host _ _).1.trans hb

end NoStops

/-- Settles O22: the event answers a next state, and no outcome of a step sets BUSY. -/
theorem eventsInTheWindowNeverStop : Obligations.EventsInTheWindowNeverStop := by
  intro s e rest hb hp he
  obtain ⟨t, ht⟩ := exists_perform_eq_next (s := s.withPending rest) hb he
  have hstep : step s = .next t := (step_of_pending hp).trans ht
  exact ⟨t, hstep, (stepOutcome_of_step hp hstep).busy_false hb⟩

section FullChunk

/-- XOR of all 64 bytes is XOR of the 16 words, since the lanes of an XOR are the XOR of the lanes. -/
theorem getElem_xorBytes_64 (d out : Words16) (i : Nat) (hi : i < 16) : (xorBytes 64 d out)[i] = d[i] ^^^ out[i] := by
  have lane : ∀ k, k < 4 → (if 4 * i + k < 64 then byteAt d (4 * i + k) ^^^ byteAt out (4 * i + k)
      else byteAt d (4 * i + k)) = byteLane (d[i] ^^^ out[i]) k := by
    intro k hk
    rw [if_pos (by omega), byteAt_lane d i k hi hk, byteAt_lane out i k hi hk, byteLane_xor]
  rw [xorBytes, getElem_bufferOf _ i hi, lane 1 (by decide), lane 2 (by decide), lane 3 (by decide)]
  rw [show 4 * i = 4 * i + 0 from rfl, lane 0 (by decide)]
  exact le32_byteLane _

theorem commandError_chachaXor_64 {s : State} (hs : s.streamDone = false) :
    commandError (.chachaXor 64) s = none := by
  simp [commandError_chachaXor, hs]

end FullChunk

/-- Settles O45: the command meets no error, and its effect XORs DATA with the block it leaves in KS. -/
theorem fullChunkXorsWholeWords : Obligations.FullChunkXorsWholeWords := by
  intro s herr hs
  exact ⟨effect (.chachaXor 64) s, exec_of_ok herr (commandError_chachaXor_64 hs),
    fun i => getElem_xorBytes_64 s.data _ i i.isLt⟩

section BusAddresses

theorem busOffset_eq_some_iff {addr off : Nat} :
    busOffset addr = some off ↔ addr = Config.base + off ∧ off < 0x200 := by
  have hsize : Config.windowSize = 0x200 := rfl
  rw [busOffset, Option.ite_none_right_eq_some, Option.some.injEq, hsize]
  omega

end BusAddresses

/-- Settles O19: an address decodes to an offset exactly if it is BASE plus an offset of the window. -/
theorem windowStandsAtBase : Obligations.WindowStandsAtBase := by
  refine ⟨fun off ho => busOffset_eq_some_iff.2 ⟨rfl, ho⟩, fun addr hout => ?_⟩
  refine Option.eq_none_iff_forall_ne_some.2 fun off h => ?_
  obtain ⟨haddr, hoff⟩ := busOffset_eq_some_iff.1 h
  omega

section AccessWhileBusy
/-! The one access that has a meaning while BUSY = 1 (20_memory.md R76). -/

theorem perform_write_of_busy {off n : Nat} {v : Word} {s : State} (hb : s.busy = true) (ho : off < 0x200) :
    perform (.memWrite off n v) s = .refused .accessWhileBusy := by
  simp [perform, hb, not_windowSize_le ho]

theorem perform_read_of_busy {off n : Nat} {s : State} (hb : s.busy = true) (ho : off < 0x200)
    (hstatus : ¬(off = 0x008 ∧ n = 4)) : perform (.memRead off n) s = .refused .accessWhileBusy := by
  simp only [perform, if_neg (not_windowSize_le ho), if_pos (And.intro hb hstatus)]

/-- STATUS can be read whatever BUSY is. -/
theorem readsAs_status (s : State) : s.readsAs 0x008 (readReg .status s) := by
  intro rest
  rw [step_of_pending rfl]
  simp only [perform, not_true_eq_false, and_self, and_false, if_false]
  rfl

end AccessWhileBusy

/-- Settles O20: the refusal comes before the check of width and alignment, and STATUS is exempt from it. -/
theorem accessWhileBusyIsRefused : Obligations.AccessWhileBusyIsRefused := by
  intro s off n v rest hb ho
  rw [step_of_pending rfl, step_of_pending rfl]
  exact ⟨perform_write_of_busy hb ho, perform_read_of_busy hb ho, readsAs_status s⟩

end Sys2Proof.Proofs

namespace Sys2Proof.Proofs
open Sys2Proof Sys2Proof.Machine Sys2Proof.Laws

/-- The word of a legal command decodes to it: the decoder takes up the fields that the encoder lays down. -/
theorem decode_encode {i : Instr} (h : i.wellFormed = true) : decode (encode i) = .cmd i := by
  have hsized : decodeSized i = .cmd i := by simp [decodeSized, h]
  unfold decode
  rw [reservedOf_encode, if_pos rfl, opcOf_encode, lengthOf_encode]
  cases i with
  | shaChunk n => exact hsized
  | chachaXor n => exact hsized
  | _ => rfl

/-- Settles O1. -/
theorem decodeOfEncodeIsTheCommand : Obligations.DecodeOfEncodeIsTheCommand :=
  fun _ h => decode_encode h

/-- Settles O2: a decoded word has the fields of its command's encoding, and a word is its fields. -/
theorem decodedWordIsTheEncoding : Obligations.DecodedWordIsTheEncoding :=
  fun _ _ h => ⟨wellFormed_of_decode h, encode_of_decode h⟩

section IllegalWords
/-! The illegal words, by the fields of the word (30_encoding.md R95). -/

/-- The opcodes of the commands that carry no length. -/
def fixedOpcodes : List Nat := [0x00, 0x01, 0x02, 0x04, 0x05, 0x06]

theorem decodeFixed_eq_illegalCmd_iff (i : Instr) (n : BitVec 7) : decodeFixed i n = .illegalCmd ↔ n ≠ 0 := by
  simp [decodeFixed]

theorem decodeFixed_ne_badLength (i : Instr) (n : BitVec 7) : decodeFixed i n ≠ .badLength := by
  unfold decodeFixed
  split <;> nofun

theorem decodeSized_ne_illegalCmd (i : Instr) : decodeSized i ≠ .illegalCmd := by
  unfold decodeSized
  split <;> nofun

theorem decodeSized_eq_badLength_iff (i : Instr) : decodeSized i = .badLength ↔ i.wellFormed = false := by
  simp [decodeSized]

theorem wellFormed_shaChunk_eq_false_iff (n : BitVec 7) :
    (Instr.shaChunk n).wellFormed = false ↔ 64 < n.toNat := by
  simp [Instr.wellFormed]

theorem wellFormed_chachaXor_eq_false_iff (n : BitVec 7) :
    (Instr.chachaXor n).wellFormed = false ↔ n.toNat = 0 ∨ 64 < n.toNat := by
  rw [Instr.wellFormed, decide_eq_false_iff_not]
  omega

theorem decode_of_reservedOf_ne {v : Word} (h : reservedOf v ≠ 0) : decode v = .illegalCmd := by
  rw [decode, if_neg h]

/-- A word with RES = 0 is ILLEGAL_CMD by its opcode, or by an N that its command does not carry. -/
theorem decode_eq_illegalCmd_iff (v : Word) : decode v = .illegalCmd ↔
    reservedOf v ≠ 0 ∨ 0x08 ≤ (opcOf v).toNat ∨ ((opcOf v).toNat ∈ fixedOpcodes ∧ lengthOf v ≠ 0) := by
  by_cases hr : reservedOf v = 0
  · unfold decode
    rw [if_pos hr]
    split
    case h_4 ho => simp [hr, ho, fixedOpcodes, decodeSized_ne_illegalCmd]
    case h_8 ho => simp [hr, ho, fixedOpcodes, decodeSized_ne_illegalCmd]
    case h_9 =>
      have hopc : 0x08 ≤ (opcOf v).toNat := by
        simp only [imp_false] at *
        omega
      exact iff_of_true rfl (.inr (.inl hopc))
    all_goals
      rename_i ho
      simp [hr, ho, fixedOpcodes, decodeFixed_eq_illegalCmd_iff]
  · exact iff_of_true (decode_of_reservedOf_ne hr) (.inl hr)

/-- BAD_LENGTH is left to the two commands that carry a length. -/
theorem decode_eq_badLength_iff (v : Word) : decode v = .badLength ↔
    reservedOf v = 0 ∧
      (((opcOf v).toNat = 0x03 ∧ 64 < (lengthOf v).toNat) ∨
       ((opcOf v).toNat = 0x07 ∧ ((lengthOf v).toNat = 0 ∨ 64 < (lengthOf v).toNat))) := by
  by_cases hr : reservedOf v = 0
  · unfold decode
    rw [if_pos hr]
    split
    case h_4 ho => simp [hr, ho, decodeSized_eq_badLength_iff, wellFormed_shaChunk_eq_false_iff]
    case h_8 ho => simp [hr, ho, decodeSized_eq_badLength_iff, wellFormed_chachaXor_eq_false_iff]
    case h_9 =>
      simp only [imp_false] at *
      exact iff_of_false nofun (by omega)
    all_goals
      rename_i ho
      simp [ho, decodeFixed_ne_badLength]
  · rw [decode_of_reservedOf_ne hr]
    exact iff_of_false nofun fun h => hr h.1

end IllegalWords

/-- Settles O3: the fields of the word as quotients and remainders of its value. -/
theorem illegalWordsAreExactlyTheListed : Obligations.IllegalWordsAreExactlyTheListed := by
  intro v res n opc
  have hres : reservedOf v = 0 ↔ res = 0 := by rw [← BitVec.toNat_inj, toNat_reservedOf]; rfl
  have hn : lengthOf v = 0 ↔ n = 0 := by rw [← BitVec.toNat_inj, toNat_lengthOf]; rfl
  constructor
  · rw [decode_eq_illegalCmd_iff, Ne, Ne, hres, hn, toNat_opcOf]
    rfl
  · rw [decode_eq_badLength_iff, hres, toNat_opcOf, toNat_lengthOf]

section OpcodeTable
/-! What a match with a row of the opcode table says of the fields of the word (30_encoding.md R93). -/

theorem opcOf_and (v w : Word) : opcOf (v &&& w) = opcOf v &&& opcOf w := BitVec.extractLsb'_and

theorem lengthOf_and (v w : Word) : lengthOf (v &&& w) = lengthOf v &&& lengthOf w := BitVec.extractLsb'_and

theorem reservedOf_and (v w : Word) : reservedOf (v &&& w) = reservedOf v &&& reservedOf w := BitVec.extractLsb'_and

theorem eq_iff_fields {v w : Word} :
    v = w ↔ opcOf v = opcOf w ∧ lengthOf v = lengthOf w ∧ reservedOf v = reservedOf w :=
  ⟨fun h => h ▸ ⟨rfl, rfl, rfl⟩, fun ⟨ho, hl, hr⟩ => eq_of_fields ho hl hr⟩

/-- Every mask holds OPC and RES, and N exactly where the command carries no length; RES and N of the word are 0. -/
theorem row_fields : ∀ row ∈ opcodeTable,
    opcOf row.mask = .allOnes 8 ∧ reservedOf row.mask = .allOnes 17 ∧
    lengthOf row.mask = (if (opcOf row.word).toNat ∈ fixedOpcodes then .allOnes 7 else 0) ∧
    lengthOf row.word = 0 ∧ reservedOf row.word = 0 := by
  decide

theorem opcOf_row_lt : ∀ row ∈ opcodeTable, (opcOf row.word).toNat < 0x08 := by decide

theorem exists_row_of_opc : ∀ c : BitVec 8, c.toNat < 0x08 → ∃ row ∈ opcodeTable, opcOf row.word = c := by
  decide

theorem row_eq_of_opc : ∀ r ∈ opcodeTable, ∀ q ∈ opcodeTable, opcOf r.word = opcOf q.word → r = q := by decide

theorem row_match_iff {row : OpcodeRow} (hrow : row ∈ opcodeTable) (v : Word) :
    v &&& row.mask = row.word ↔
      opcOf v = opcOf row.word ∧ ((opcOf v).toNat ∈ fixedOpcodes → lengthOf v = 0) ∧ reservedOf v = 0 := by
  obtain ⟨hopc, hres, hlen, hlen0, hres0⟩ := row_fields row hrow
  rw [eq_iff_fields, opcOf_and, lengthOf_and, reservedOf_and, hopc, hres, hlen, hlen0, hres0,
    BitVec.and_allOnes, BitVec.and_allOnes]
  refine and_congr_right fun ho => and_congr_left fun _ => ?_
  rw [ho]
  split
  · rw [BitVec.and_allOnes]
    exact ⟨fun h _ => h, fun h => h ‹_›⟩
  · exact iff_of_true BitVec.and_zero fun h => absurd h ‹_›

end OpcodeTable

/-- Settles O4: below OPC 0x08 each opcode has one row, and the rows' condition on N is the decoder's. -/
theorem decodeAgreesWithOpcodeTable : Obligations.DecodeAgreesWithOpcodeTable := by
  intro v
  refine ⟨?_, fun r hr q hq hvr hvq => ?_⟩
  · rw [Ne, decode_eq_illegalCmd_iff]
    push Not
    constructor
    · rintro ⟨hres, hopc, hlen⟩
      obtain ⟨row, hrow, ho⟩ := exists_row_of_opc (opcOf v) hopc
      exact ⟨row, hrow, (row_match_iff hrow v).2 ⟨ho.symm, hlen, hres⟩⟩
    · rintro ⟨row, hrow, hmatch⟩
      obtain ⟨ho, hlen, hres⟩ := (row_match_iff hrow v).1 hmatch
      exact ⟨hres, ho ▸ opcOf_row_lt row hrow, hlen⟩
  · obtain ⟨hor, _⟩ := (row_match_iff hr v).1 hvr
    obtain ⟨hoq, _⟩ := (row_match_iff hq v).1 hvq
    exact row_eq_of_opc r hr q hq (hor.symm.trans hoq)

/-- Settles O5: the words are the encodings of legal commands. -/
theorem usefulEncodingsDecode : Obligations.UsefulEncodingsDecode :=
  ⟨decode_encode (i := .nop) rfl, decode_encode (i := .shaInit) rfl, decode_encode (i := .shaCompress) rfl,
    decode_encode (i := .shaChunk 64) rfl, decode_encode (i := .shaChunk 0) rfl, decode_encode (i := .shaChunk 3) rfl,
    decode_encode (i := .shaChunk 56) rfl, decode_encode (i := .keyFromDigest) rfl,
    decode_encode (i := .chachaInit) rfl, decode_encode (i := .chachaBlock) rfl,
    decode_encode (i := .chachaXor 64) rfl, decode_encode (i := .chachaXor 6) rfl⟩

end Sys2Proof.Proofs

namespace Sys2Proof.Proofs
open Sys2Proof Sys2Proof.Machine Sys2Proof.Laws

section PaddedMessage
/-! SHA-256 of a whole string, 64 bytes at a time: the padding depends on the short last piece and on the length. -/

/-- Induction on a byte string by its 64-byte pieces. -/
theorem blockInduction {P : List Byte → Prop} (short : ∀ b, b.length < 64 → P b)
    (full : ∀ p b, p.length = 64 → P b → P (p ++ b)) (b : List Byte) : P b := by
  by_cases h : b.length < 64
  · exact short b h
  · rw [← List.take_append_drop 64 b]
    exact full _ _ (by simp; omega) (blockInduction short full (b.drop 64))
termination_by b.length
decreasing_by simp; omega

@[simp] theorem pieces_nil : pieces [] = [] := rfl

theorem piece_append_zero {p : List Byte} (b : List Byte) (hp : p.length = 64) : piece (p ++ b) 0 = p := by
  simp [piece, ← hp]

theorem piece_append_succ {p : List Byte} (b : List Byte) (k : Nat) (hp : p.length = 64) :
    piece (p ++ b) (k + 1) = piece b k := by
  rw [piece, piece, Nat.mul_add, Nat.add_comm, ← List.drop_drop, Nat.mul_one, List.drop_left' hp]

theorem pieces_append {p : List Byte} (b : List Byte) (hp : p.length = 64) :
    pieces (p ++ b) = p :: pieces b := by
  have hcount : ((p ++ b).length + 63) / 64 = (b.length + 63) / 64 + 1 := by
    rw [List.length_append]
    omega
  simp only [pieces, hcount, List.range_succ_eq_map, List.map_cons, List.map_map, piece_append_zero b hp]
  congr 2
  funext k
  exact piece_append_succ b k hp

/-- The padded string with length trailer `len`, which for a whole string is its own bit length (log entry 15). -/
def paddedWith (len : BitVec 64) (b : List Byte) : List Byte :=
  b ++ [0x80] ++ zeros ((119 - b.length % 64) % 64) ++ be64bytes len

theorem sha256_eq_paddedWith (b : List Byte) :
    sha256 b = (pieces (paddedWith (BitVec.ofNat 64 (8 * b.length)) b)).foldl compress initialHash := rfl

theorem paddedWith_append {p : List Byte} (b : List Byte) (len : BitVec 64) (hp : p.length = 64) :
    paddedWith len (p ++ b) = p ++ paddedWith len b := by
  have hmod : (p ++ b).length % 64 = b.length % 64 := by
    rw [List.length_append]
    omega
  simp only [paddedWith, hmod, List.append_assoc]

/-- A string of at most 55 bytes pads to one block. -/
theorem pieces_paddedWith_of_le_55 {b : List Byte} (len : BitVec 64) (hb : b.length ≤ 55) :
    pieces (paddedWith len b) = [paddedBlock b b.length len] := by
  have hzeros : (119 - b.length % 64) % 64 = 55 - b.length := by omega
  have hlength : (paddedBlock b b.length len).length = 64 := by
    simp [paddedBlock, zeros]
    omega
  have hblock : paddedWith len b = paddedBlock b b.length len ++ [] := by
    simp [paddedWith, paddedBlock, hzeros]
  rw [hblock, pieces_append [] hlength, pieces_nil]

/-- A string of 56 to 63 bytes pads to the two blocks of the split. -/
theorem pieces_paddedWith_of_lt_64 {b : List Byte} (len : BitVec 64) (hlow : 55 < b.length) (hb : b.length < 64) :
    pieces (paddedWith len b) = [splitFirst b b.length, splitSecond len] := by
  have hzeros : zeros ((119 - b.length % 64) % 64) = zeros (63 - b.length) ++ zeros 56 := by
    rw [zeros, zeros, zeros, List.replicate_append_replicate]
    congr 1
    omega
  have hlength : (splitFirst b b.length).length = 64 := by
    simp [splitFirst, zeros]
    omega
  have hblocks : paddedWith len b = splitFirst b b.length ++ (splitSecond len ++ []) := by
    simp [paddedWith, splitFirst, splitSecond, hzeros]
  rw [hblocks, pieces_append _ hlength, pieces_append _ (length_splitSecond len), pieces_nil]

/-- The framer's final chunk compresses the blocks of the padded rest (41_framer.md R142, R143). -/
theorem digestChunk_eq_foldl {b : List Byte} (h : Words8) (len : BitVec 64) (hb : b.length < 64) :
    digestChunk h b b.length len = (pieces (paddedWith len b)).foldl compress h := by
  unfold digestChunk
  rw [if_neg (by omega)]
  split
  · rw [pieces_paddedWith_of_le_55 len ‹_›]
    rfl
  · rw [pieces_paddedWith_of_lt_64 len (by omega) hb]
    rfl

/-- A chunk of n bytes reads the first n bytes of its block only (41_framer.md R148). -/
theorem digestChunk_take (h : Words8) {b : Block} {n : Nat} (len : BitVec 64) (hb : b.length = 64) :
    digestChunk h (b.take n) n len = digestChunk h b n len := by
  simp only [digestChunk, paddedBlock, splitFirst, List.take_take, Nat.min_self]
  split
  · rw [List.take_of_length_le (by omega)]
  · rfl

theorem toNat_pair64 (hi lo : Word) : (pair64 hi lo).toNat = 2 ^ 32 * hi.toNat + lo.toNat := by
  have hhi : hi.toNat <<< 32 < 2 ^ 64 := by
    rw [Nat.shiftLeft_eq]
    have := hi.isLt
    omega
  rw [pair64, BitVec.toNat_or, BitVec.toNat_shiftLeft, BitVec.toNat_setWidth_of_le (by decide),
    BitVec.toNat_setWidth_of_le (by decide), Nat.mod_eq_of_lt hhi, ← Nat.shiftLeft_add_eq_or_of_lt lo.isLt,
    Nat.shiftLeft_eq, Nat.mul_comm]

/-- The two halves of LEN count as one 64-bit number (41_framer.md R140). -/
theorem pair64_lenAfter {n : Nat} (lo hi : Word) (hn : n ≤ 64) :
    pair64 (lenHiAfter n lo hi) (lenLoAfter n lo) = pair64 hi lo + BitVec.ofNat 64 (8 * n) := by
  have hlo := lo.isLt
  apply BitVec.eq_of_toNat_eq
  rw [BitVec.toNat_add, toNat_pair64, toNat_pair64, lenLoAfter, lenHiAfter, BitVec.toNat_ofNat, BitVec.toNat_ofNat]
  split
  · rw [BitVec.toNat_add, show (1 : Word).toNat = 1 from rfl]
    omega
  · omega

end PaddedMessage

section HostPrograms
/-! The host's programs, event by event: a command on a ready CORE, the words of a piece, a chunk, a whole string. -/

theorem performAll_append_of_next {es fs : List HostEvent} {s t : State} (h : performAll es s = .next t) :
    performAll (es ++ fs) s = performAll fs t := by
  rw [performAll_append, h]

theorem performAll_cons_of_next {e : HostEvent} {es : List HostEvent} {s t : State} (h : perform e s = .next t) :
    performAll (e :: es) s = performAll es t := by
  rw [performAll, h]

/-- A legal command that meets no error leaves its effect on the answered state. -/
theorem perform_cmd {i : Instr} {s : State} (hs : s.ready) (hwf : i.wellFormed = true)
    (hc : commandError i s = none) : perform (cmd i) s = .next (effect i (respond .writeDone s)) := by
  have hcr : commandError i (respond .writeDone s) = none := by
    rw [← hc]
    cases i <;> rfl
  rw [cmd, wr, perform_write _ hs.1 (by decide) (by decide)]
  exact (issue_of_cmd _ (decode_encode hwf)).trans (exec_of_ok hs.2 hcr)

theorem ready_effect {s : State} (i : Instr) (r : Response) (hs : s.ready) : (effect i (respond r s)).ready := by
  obtain ⟨hbusy, _, _, herr, _⟩ := effect_host i (respond r s)
  exact ⟨hbusy.trans hs.1, herr.trans hs.2⟩

/-- A word write of the host to a register other than CMD and STATUS. -/
theorem perform_wr {r : Reg} {s : State} (v : Word) (hb : s.busy = false) (hcmd : r ≠ .cmd)
    (hstatus : r ≠ .status) :
    perform (wr (offsetOf r) v) s = .next (written r v (respond .writeDone s)) := by
  obtain ⟨hlt, halign⟩ := offsetOf_lt_and_aligned r
  rw [wr, perform_write v hb hlt halign, regAt_offsetOf]
  exact writeReg_eq_written v _ hcmd hstatus

/-- Word writes to the first c words of MSG leave them there, and change nothing but MSG and the host's record. -/
theorem performAll_msgWrites (w : Nat → Word) {s : State} (hb : s.busy = false) {c : Nat} (hc : c ≤ 16) :
    ∃ (m : Words16) (rs : List Response),
      performAll ((List.range c).map fun k => wr (offsetOf (.msg 0) + 4 * k) (w k)) s =
        .next { s with msg := m, responses := rs } ∧
      ∀ k (_ : k < c), m[k] = w k := by
  induction c with
  | zero => exact ⟨s.msg, s.responses, rfl, nofun⟩
  | succ c ih =>
    obtain ⟨m, rs, hrun, hwords⟩ := ih (by omega)
    have hoff : offsetOf (.msg 0) + 4 * c = offsetOf (.msg ⟨c, hc⟩) := by simp [offsetOf]
    have hwrite := perform_wr (r := .msg ⟨c, hc⟩) (s := { s with msg := m, responses := rs }) (w c) hb nofun nofun
    refine ⟨m.set c (w c), .writeDone :: rs, ?_, fun k hk => ?_⟩
    · rw [List.range_succ, List.map_append, performAll_append_of_next hrun, List.map_singleton, hoff,
        performAll_cons_of_next hwrite]
      rfl
    · rw [Vector.getElem_set]
      split
      · simp [*]
      · exact hwords k (by omega)

/-- Loading at most 64 bytes puts them at the head of MSG (20_memory.md R67, 30_encoding.md R99). -/
theorem performAll_ldMsg {p : List Byte} {s : State} (hb : s.busy = false) (hp : p.length ≤ 64) :
    ∃ (m : Words16) (rs : List Response),
      performAll (ldMsg p) s = .next { s with msg := m, responses := rs } ∧ (blockOf m).take p.length = p := by
  obtain ⟨m, rs, hrun, hwords⟩ := performAll_msgWrites (wordOfBytes p) hb (c := (p.length + 3) / 4) (by omega)
  refine ⟨m, rs, hrun, List.ext_getElem (by simp; omega) fun j hj hjp => ?_⟩
  have hsplit : 4 * (j / 4) + j % 4 = j := by omega
  calc ((blockOf m).take p.length)[j] = byteAt m j := by simp [blockOf]
    _ = byteLane (wordOfBytes p (j / 4)) (j % 4) := by
      rw [byteAt_of_lt _ _ (by omega), hwords (j / 4) (by omega)]
    _ = p.getD j 0 := by
      have hlane := byteLane_le32 (fun k => p.getD (4 * (j / 4) + k) 0) (j % 4) (by omega)
      rwa [hsplit] at hlane
    _ = p[j] := by simp [hjp]

/-- One chunk of a hashed string: its bytes to MSG, then SHA_CHUNK with its length (41_framer.md R147). -/
def hashChunk (p : List Byte) : List HostEvent :=
  ldMsg p ++ [cmd (.shaChunk (BitVec.ofNat 7 p.length))]

/-- What one chunk of at most 64 bytes leaves: H over its bytes, LEN counted, and the seal if it is short. -/
theorem performAll_hashChunk {p : List Byte} {s : State} (hs : s.ready) (hopen : s.shaDone = false)
    (hp : p.length ≤ 64) :
    ∃ t : State, performAll (hashChunk p) s = .next t ∧ t.ready ∧
      pair64 t.lenHi t.lenLo = pair64 s.lenHi s.lenLo + BitVec.ofNat 64 (8 * p.length) ∧
      t.h = digestChunk s.h p p.length (pair64 t.lenHi t.lenLo) ∧ t.shaDone = decide (p.length < 64) := by
  obtain ⟨m, rs, hload, htake⟩ := performAll_ldMsg hs.1 hp
  have hn : (BitVec.ofNat 7 p.length).toNat = p.length := by
    rw [BitVec.toNat_ofNat]
    omega
  have hwf : (Instr.shaChunk (BitVec.ofNat 7 p.length)).wellFormed = true := by
    simpa only [Instr.wellFormed, hn, decide_eq_true_eq]
  have hloaded : State.ready { s with msg := m, responses := rs } := hs
  have hc : commandError (.shaChunk (BitVec.ofNat 7 p.length)) { s with msg := m, responses := rs } = none := by
    simp [commandError_shaChunk, hn, hopen, Nat.not_lt.2 hp]
  refine ⟨_, ?_, ready_effect (.shaChunk (BitVec.ofNat 7 p.length)) .writeDone hloaded, ?_, ?_, ?_⟩
  · rw [hashChunk, performAll_append_of_next hload, performAll_cons_of_next (perform_cmd hloaded hwf hc)]
    rfl
  · simp only [effect, respond_lenLo, respond_lenHi, hn]
    exact pair64_lenAfter _ _ hp
  · simp only [effect, respond_h, respond_msg, hn]
    rw [← digestChunk_take _ _ (length_blockOf m), htake]
  · simp [effect, hn, sealedBy, hopen]

/-- The chunks of a string: each full piece as SHA_CHUNK 64, then the rest (30_encoding.md R99). -/
def hashChunks (b : List Byte) : List HostEvent :=
  ((List.range (b.length / 64)).flatMap fun k => ldMsg (piece b k) ++ [cmd (.shaChunk 64)]) ++
    (ldMsg (piece b (b.length / 64)) ++ [cmd (.shaChunk (BitVec.ofNat 7 (b.length % 64)))])

theorem hashProgram_eq (b : List Byte) : hashProgram b = cmd .shaInit :: hashChunks b := rfl

theorem hashChunks_of_lt {b : List Byte} (hb : b.length < 64) : hashChunks b = hashChunk b := by
  have hpiece : piece b 0 = b := by simp [piece]; omega
  simp [hashChunks, hashChunk, Nat.div_eq_of_lt hb, Nat.mod_eq_of_lt hb, hpiece]

theorem hashChunks_append {p : List Byte} (b : List Byte) (hp : p.length = 64) :
    hashChunks (p ++ b) = hashChunk p ++ hashChunks b := by
  have hdiv : (p ++ b).length / 64 = b.length / 64 + 1 := by
    rw [List.length_append]
    omega
  have hmod : (p ++ b).length % 64 = b.length % 64 := by
    rw [List.length_append]
    omega
  have hchunk : hashChunk p = ldMsg p ++ [cmd (.shaChunk 64)] := by
    rw [hashChunk, hp]
    rfl
  simp only [hashChunks, hchunk, hdiv, hmod, List.range_succ_eq_map, List.flatMap_cons, List.flatMap_map,
    piece_append_zero b hp, piece_append_succ b _ hp, Nat.succ_eq_add_one, List.append_assoc]

/-- The chunks of a string, run from any H and LEN, compress the padded string, whose trailer is the new LEN. -/
theorem performAll_hashChunks (b : List Byte) : ∀ s : State, s.ready → s.shaDone = false →
    ∃ t : State, performAll (hashChunks b) s = .next t ∧ t.ready ∧ t.shaDone = true ∧
      pair64 t.lenHi t.lenLo = pair64 s.lenHi s.lenLo + BitVec.ofNat 64 (8 * b.length) ∧
      t.h = (pieces (paddedWith (pair64 t.lenHi t.lenLo) b)).foldl compress s.h := by
  induction b using blockInduction with
  | short b hb =>
    intro s hs hopen
    obtain ⟨t, hrun, ht, hlen, hh, hdone⟩ := performAll_hashChunk hs hopen hb.le
    rw [hashChunks_of_lt hb]
    exact ⟨t, hrun, ht, by simp [hdone, hb], hlen, hh.trans (digestChunk_eq_foldl _ _ hb)⟩
  | full p b hp ih =>
    intro s hs hopen
    obtain ⟨u, hrun, hu, hlen, hh, hdone⟩ := performAll_hashChunk hs hopen hp.le
    obtain ⟨t, hrest, ht, hsealed, hlen', hh'⟩ := ih u hu (by simp [hdone, hp])
    have hfull : u.h = compress s.h p := by rw [hh, digestChunk, if_pos hp]
    refine ⟨t, ?_, ht, hsealed, ?_, ?_⟩
    · rw [hashChunks_append b hp, performAll_append_of_next hrun, hrest]
    · rw [hlen', hlen, BitVec.add_assoc, ← BitVec.ofNat_add, List.length_append, Nat.mul_add]
    · rw [hh', paddedWith_append b _ hp, pieces_append _ hp, List.foldl_cons, hfull]

/-- The hashing program leaves H = SHA-256 of the string, and LEN its bit length modulo 2^64 (41_framer.md R149). -/
theorem performAll_hashProgram (b : List Byte) {s : State} (hs : s.ready) :
    ∃ t : State, performAll (hashProgram b) s = .next t ∧ t.ready ∧ t.shaDone = true ∧
      pair64 t.lenHi t.lenLo = BitVec.ofNat 64 (8 * b.length) ∧ t.h = sha256 b := by
  obtain ⟨t, hrun, ht, hdone, hlen, hh⟩ :=
    performAll_hashChunks b (effect .shaInit (respond .writeDone s)) (ready_effect _ _ hs) rfl
  have hlen' : pair64 t.lenHi t.lenLo = BitVec.ofNat 64 (8 * b.length) := by
    simpa [effect, pair64] using hlen
  refine ⟨t, ?_, ht, hdone, hlen', ?_⟩
  · rw [hashProgram_eq, performAll_cons_of_next (perform_cmd hs rfl rfl), hrun]
  · rw [hh, hlen', sha256_eq_paddedWith]
    rfl

end HostPrograms

/-- Settles O58: the hashing program leaves the digest in H, KEY_FROM_DIGEST copies it into KEY, and CHACHA_INIT latches
KEY and starts the stream. -/
theorem setkeyProgramLatchesThePasswordDigest : Obligations.SetkeyProgramLatchesThePasswordDigest := by
  intro b s hs _
  obtain ⟨t, hrun, ht, _, _, hh⟩ := performAll_hashProgram b hs
  have hkey := ready_effect .keyFromDigest .writeDone ht
  refine ⟨_, ?_, hh, hh, rfl, rfl, rfl, ready_effect .chachaInit .writeDone hkey⟩
  rw [setkeyProgram, performAll_append_of_next hrun, performAll_cons_of_next (perform_cmd ht rfl rfl),
    performAll_cons_of_next (perform_cmd hkey rfl rfl)]
  rfl

end Sys2Proof.Proofs

namespace Sys2Proof.Proofs
open Sys2Proof Sys2Proof.Machine Sys2Proof.Laws

section FixedCommandWords
/-! The words that share OPC with a command without a length but are not its word (30_encoding.md R95 item 3). -/

theorem decode_eq_illegalCmd_of_fixed {v : Word} {i : Instr} (hfixed : i.opcode.toNat ∈ fixedOpcodes)
    (hopc : v.toNat % 2 ^ 8 = i.opcode.toNat) (hne : v ≠ encode i) : decode v = .illegalCmd := by
  have hopc' : opcOf v = i.opcode := BitVec.eq_of_toNat_eq ((toNat_opcOf v).trans hopc)
  have hlen : i.length = 0 := by
    cases i with
    | shaChunk n | chachaXor n => simp [fixedOpcodes, Instr.opcode] at hfixed
    | _ => rfl
  rw [decode_eq_illegalCmd_iff, hopc']
  by_cases hres : reservedOf v = 0
  · refine .inr (.inr ⟨hfixed, fun hn => hne ?_⟩)
    exact eq_of_fields (by simp [hopc']) (by simp [hn, hlen]) (by simp [hres])
  · exact .inl hres

/-- Issuing such a word enters ILLEGAL_CMD (60_exceptions.md R222, R227). -/
theorem issue_of_fixed_ne {v : Word} (i : Instr) {s : State} (herr : s.err = false)
    (hfixed : i.opcode.toNat ∈ fixedOpcodes) (hopc : v.toNat % 2 ^ 8 = i.opcode.toNat) (hne : v ≠ encode i) :
    issue v s = .next (raiseError .illegalCmd v s) := by
  simp [issue, herr, decode_eq_illegalCmd_of_fixed hfixed hopc hne]

theorem exec_of_err (i : Instr) {s : State} (herr : s.err = true) : exec i s = .next s := by
  rw [exec_eq_runCommand, runCommand_of_err herr]

end FixedCommandWords

/-- Settles O36: SHA_INIT has no check of its own, so that with ERR = 0 it leaves its effect. -/
theorem shaInitStartsASession : Obligations.ShaInitStartsASession :=
  ⟨decode_encode (i := .shaInit) rfl,
    fun _ _ herr hopc hne => issue_of_fixed_ne .shaInit herr (by decide) hopc hne,
    fun _ herr => exec_of_err .shaInit herr,
    fun _ herr => exec_of_ok herr rfl⟩

/-- R126's example: the compression of the zero block into IV. -/
theorem compress_reset : compress State.reset.h (blockOf State.reset.msg) =
    #v[0xda5698be, 0x17b9b469, 0x62335799, 0x779fbeca, 0x8ce5d491, 0xc0d26243, 0xbafef9ea, 0x1837a9d8] := by
  decide +kernel

/-- Settles O37: SHA_COMPRESS has no check of its own, so that with ERR = 0 it leaves its effect, sealed or not. -/
theorem shaCompressCompressesMsgIntoH : Obligations.ShaCompressCompressesMsgIntoH := by
  refine ⟨decode_encode (i := .shaCompress) rfl,
    fun _ _ herr hopc hne => issue_of_fixed_ne .shaCompress herr (by decide) hopc hne,
    fun _ herr => exec_of_err .shaCompress herr,
    fun _ herr => exec_of_ok herr rfl, ?_⟩
  rw [exec_of_ok rfl rfl, effect, compress_reset]

section BitFunctions
/-! The shift and the rotation as numbers and bit by bit, and the two functions that choose bits
(40_digest_core.md R110, R115, R116). -/

theorem toNat_shr (x : Word) (n : Nat) : (shr x n).toNat = x.toNat / 2 ^ n := by
  rw [shr, BitVec.toNat_ushiftRight, Nat.shiftRight_eq_div_pow]

theorem getLsbD_shr (x : Word) (n i : Nat) : (shr x n).getLsbD i = x.getLsbD (i + n) := by
  rw [shr, BitVec.getLsbD_ushiftRight, Nat.add_comm]

/-- A rotation right by n takes bit i from bit i + n, around the end of the word. -/
theorem getLsbD_rotr (x : Word) {n i : Nat} (hn : n < 32) (hi : i < 32) :
    (rotr x n).getLsbD i = x.getLsbD ((i + n) % 32) := by
  rw [rotr, BitVec.getLsbD_or, getLsbD_shr, BitVec.getLsbD_shiftLeft]
  by_cases hin : i + n < 32
  · have hlow : i < 32 - n := by omega
    simp [hlow, Nat.mod_eq_of_lt hin]
  · have hhigh : ¬ i < 32 - n := by omega
    have hwrap : (i + n) % 32 = i - (32 - n) := by omega
    simp [hhigh, hi, hwrap, BitVec.getLsbD_of_ge x (i + n) (by omega)]

theorem getLsbD_ch (e f g : Word) {i : Nat} (hi : i < 32) :
    (ch e f g).getLsbD i = if e.getLsbD i then f.getLsbD i else g.getLsbD i := by
  simp only [ch, BitVec.getLsbD_xor, BitVec.getLsbD_and, BitVec.getLsbD_not]
  cases e.getLsbD i <;> simp [hi]

/-- Two of three bits, by the parity of their pairs. -/
theorem majority_iff_two_le : ∀ a b c : Bool,
    (((a && b) ^^ (a && c)) ^^ (b && c)) = true ↔ 2 ≤ a.toNat + b.toNat + c.toNat := by decide

theorem getLsbD_maj (a b c : Word) (i : Nat) : (maj a b c).getLsbD i = true ↔
    2 ≤ (a.getLsbD i).toNat + (b.getLsbD i).toNat + (c.getLsbD i).toNat := by
  simp only [maj, BitVec.getLsbD_xor, BitVec.getLsbD_and]
  exact majority_iff_two_le _ _ _

end BitFunctions

/-- Settles O48: a rotation is the OR of two shifts, and each shift is a quotient or a product. -/
theorem shiftAndRotationsOnNumbers : Obligations.ShiftAndRotationsOnNumbers := by
  intro x n _ _
  refine ⟨toNat_shr x n, ?_, ?_⟩
  · rw [rotr, BitVec.toNat_or, toNat_shr, BitVec.toNat_shiftLeft, Nat.shiftLeft_eq]
  · rw [rotl, BitVec.toNat_or, toNat_shr, BitVec.toNat_shiftLeft, Nat.shiftLeft_eq]

/-- Settles O49: bit i of an XOR is the XOR of the bits that the rotations and the shift bring to i. -/
theorem sigmaFunctionsBitByBit : Obligations.SigmaFunctionsBitByBit := by
  refine ⟨fun x i hi => ?_, by decide⟩
  simp (disch := omega) only [smallSigma0, smallSigma1, bigSigma0, bigSigma1, BitVec.getLsbD_xor, getLsbD_shr,
    getLsbD_rotr, and_self]

/-- Settles O50: Ch by the two values of e's bit, Maj by the eight values of the three bits. -/
theorem chooseAndMajorityBitByBit : Obligations.ChooseAndMajorityBitByBit :=
  ⟨fun x y z i hi => ⟨getLsbD_ch x y z hi, getLsbD_maj x y z i⟩, by decide⟩

section Schedule
/-! The words of the finished schedule, read off the shorter schedule in which each first stands
(40_digest_core.md R119, R120). -/

theorem length_schedule (b : Block) : (schedule b).length = 64 := length_schedulePrefix b 48

theorem getD_schedule {b : Block} {n t : Nat} (hn : n ≤ 48) (ht : t < 16 + n) :
    (schedule b).getD t 0 = (schedulePrefix b n).getD t 0 := by
  have h := getD_schedulePrefix_add b n (48 - n) t ht
  rwa [Nat.add_sub_cancel' hn] at h

theorem getD_schedule_of_lt {b : Block} {t : Nat} (ht : t < 16) : (schedule b).getD t 0 = blockWord b t := by
  rw [getD_schedule (Nat.zero_le 48) ht]
  simp [schedulePrefix, Nat.repeat, List.getD_eq_getElem?_getD, ht]

/-- The word that step n appends, in terms of the words before it. -/
theorem getD_schedulePrefix_last (b : Block) (n : Nat) : (schedulePrefix b (n + 1)).getD (16 + n) 0 =
    (schedulePrefix b n).getD (16 + n - 16) 0 + smallSigma0 ((schedulePrefix b n).getD (16 + n - 15) 0) +
      (schedulePrefix b n).getD (16 + n - 7) 0 + smallSigma1 ((schedulePrefix b n).getD (16 + n - 2) 0) := by
  rw [schedulePrefix_succ, extendSchedule_eq, length_schedulePrefix, List.getD_append_right _ _ _ _ (by simp),
    length_schedulePrefix, Nat.sub_self, List.getD_cons_zero]

theorem getD_schedule_of_ge {b : Block} {t : Nat} (hlow : 16 ≤ t) (hhigh : t < 64) : (schedule b).getD t 0 =
    (schedule b).getD (t - 16) 0 + smallSigma0 ((schedule b).getD (t - 15) 0) +
      (schedule b).getD (t - 7) 0 + smallSigma1 ((schedule b).getD (t - 2) 0) := by
  obtain ⟨n, rfl⟩ := Nat.exists_eq_add_of_le hlow
  have hkept : ∀ k, k < 16 + n → (schedule b).getD k 0 = (schedulePrefix b n).getD k 0 :=
    fun k hk => getD_schedule (by omega) hk
  rw [getD_schedule (n := n + 1) (by omega) (by omega), getD_schedulePrefix_last, hkept _ (by omega),
    hkept _ (by omega), hkept _ (by omega), hkept _ (by omega)]

end Schedule

/-- Settles O52: the first 16 words are the block's, and each later word is the one its step of the recurrence
appended. -/
theorem scheduleFollowsTheRecurrence : Obligations.ScheduleFollowsTheRecurrence := by
  intro b w
  exact ⟨length_schedule b, fun _ ht => getD_schedule_of_lt ht, fun _ hlow hhigh => getD_schedule_of_ge hlow hhigh⟩

section BlockLanes
/-! The bytes and the big-endian words of BlockOf(MSG) (40_digest_core.md R119, R124). -/

theorem byteLane_eq_ofNat (w : Word) (k : Nat) : byteLane w k = BitVec.ofNat 8 (w.toNat / 2 ^ (8 * k)) := by
  rw [← Nat.shiftRight_eq_div_pow]
  rfl

/-- Bit k of a word made of four bytes is a bit of its lane k / 8. -/
theorem getLsbD_le32_lane (b : Nat → Byte) {k : Nat} (hk : k < 32) :
    (le32 (b 0) (b 1) (b 2) (b 3)).getLsbD k = (b (k / 8)).getLsbD (k % 8) := by
  rw [← byteLane_le32 b (k / 8) (by omega), getLsbD_byteLane _ _ _ (by omega), Nat.div_add_mod]

theorem getD_blockOf_lane (m : Words16) (i : Fin 16) {k : Nat} (hk : k < 4) :
    (blockOf m).getD (4 * i + k) 0 = byteLane m[i] k := by
  rw [getD_blockOf _ _ (by omega), byteAt_lane _ _ _ i.isLt hk]
  rfl

/-- Block word t is MSG[t] with its four lanes in the other order. -/
theorem blockWord_blockOf (m : Words16) (t : Fin 16) : blockWord (blockOf m) t =
    le32 (byteLane m[t] 3) (byteLane m[t] 2) (byteLane m[t] 1) (byteLane m[t] 0) := by
  rw [blockWord, be32_eq_le32, getD_blockOf_lane m t (by decide : 3 < 4), getD_blockOf_lane m t (by decide : 2 < 4),
    getD_blockOf_lane m t (by decide : 1 < 4), ← getD_blockOf_lane m t (by decide : 0 < 4), Nat.add_zero]

end BlockLanes

/-- Settles O54: byte 4i + k of the block is lane k of word i, and a block word has its lanes in reverse. -/
theorem blockOfMsgHasLittleEndianLanes : Obligations.BlockOfMsgHasLittleEndianLanes := by
  refine fun m => ⟨length_blockOf m, fun i k hk => ?_, fun t k hk => ?_⟩
  · rw [getD_blockOf_lane m i hk, byteLane_eq_ofNat]
  · rw [blockWord_blockOf, getLsbD_le32_lane (fun j => byteLane m[t] (3 - j)) hk,
      getLsbD_byteLane _ _ _ (Nat.mod_lt _ (by decide))]

/-- Settles O14: a command is ignored, enters an error or leaves its effect, and each is a next state. -/
theorem everyCommandAnswersANextState : Obligations.EveryCommandAnswersANextState := exists_exec_eq_next

section RootsOfPrimes
/-! K and IV as roots of primes (40_digest_core.md R117, R118). A constant is the low 32 bits of the root, and a small
number above them is the root's whole part: 6 at most for a cube root and 4 for a square root. -/

/-- Below 18 * 18 a number with a proper divisor has one below 18: the divisor itself or its cofactor. -/
theorem trialDivision_below_18 {n : Nat} (hn : n < 18 * 18) :
    (∀ d, d < n → 1 < d → n % d ≠ 0) ↔ ∀ d, d < 18 → d < n → 1 < d → n % d ≠ 0 := by
  refine ⟨fun h d _ => h d, fun h d hdn hd hmod => ?_⟩
  obtain hsmall | hbig := Nat.lt_or_ge d 18
  · exact h d hsmall hdn hd hmod
  · obtain ⟨q, rfl⟩ := Nat.dvd_of_mod_eq_zero hmod
    have hq18 : q < 18 := by nlinarith
    have hq : 1 < q := by nlinarith
    exact h q hq18 (by nlinarith) hq (Nat.mul_mod_left d q)

theorem firstPrimes_eq : firstPrimes =
    [2, 3, 5, 7, 11, 13, 17, 19, 23, 29, 31, 37, 41, 43, 47, 53, 59, 61, 67, 71, 73, 79, 83, 89, 97, 101, 103, 107, 109,
      113, 127, 131, 137, 139, 149, 151, 157, 163, 167, 173, 179, 181, 191, 193, 197, 199, 211, 223, 227, 229, 233, 239,
      241, 251, 257, 263, 269, 271, 277, 281, 283, 293, 307, 311] := by
  have hfilter : firstPrimes = (List.range 312).filter fun n =>
      decide (1 < n ∧ ∀ d, d < 18 → d < n → 1 < d → n % d ≠ 0) :=
    List.filter_congr fun n hn => decide_eq_decide.2 <|
      and_congr_right' (trialDivision_below_18 (Nat.lt_trans (List.mem_range.1 hn) (by decide)))
  rw [hfilter]
  decide +kernel

/-- c is the whole part of the d-th root of p * 2^(32 d), which is the d-th root of p times 2^32. -/
def IsFloorRoot (d p c : Nat) : Prop := c ^ d ≤ p * 2 ^ (32 * d) ∧ p * 2 ^ (32 * d) < (c + 1) ^ d

/-- A word under a whole part is the remainder modulo 2^32. -/
theorem eq_ofNat_add_toNat (w : Word) (q : Nat) : w = BitVec.ofNat 32 (q * 2 ^ 32 + w.toNat) := by
  apply BitVec.eq_of_toNat_eq
  have := w.isLt
  rw [BitVec.toNat_ofNat]
  omega

theorem roundConstant_isFloorRoot : ∀ t < 64, ∃ q < 7,
    IsFloorRoot 3 (firstPrimes.getD t 0) (q * 2 ^ 32 + (roundConstant t).toNat) := by
  rw [firstPrimes_eq]
  unfold IsFloorRoot
  decide +kernel

theorem initialHash_isFloorRoot : ∀ i : Fin 8, ∃ q < 5,
    IsFloorRoot 2 (firstPrimes.getD i 0) (q * 2 ^ 32 + initialHash[i].toNat) := by
  rw [firstPrimes_eq]
  unfold IsFloorRoot
  decide +kernel

end RootsOfPrimes

/-- Settles O51: each constant under the whole part of its root is the floor of the root times 2^32. -/
theorem constantsAreRootsOfPrimes : Obligations.ConstantsAreRootsOfPrimes := by
  refine ⟨by rw [firstPrimes_eq]; rfl, fun t ht => ?_, fun i => ?_⟩
  · obtain ⟨q, _, hle, hlt⟩ := roundConstant_isFloorRoot t ht
    exact ⟨_, hle, hlt, eq_ofNat_add_toNat _ q⟩
  · obtain ⟨q, _, hle, hlt⟩ := initialHash_isFloorRoot i
    exact ⟨_, hle, hlt, eq_ofNat_add_toNat _ q⟩

section Rounds
/-! The rounds of Compress (40_digest_core.md R121, R122). -/

theorem workingSet_succ (h : Words8) (w : List Word) (t : Nat) :
    workingSet h w (t + 1) = shaRound (workingSet h w t) (roundConstant t) (w.getD t 0) := rfl

theorem toList_compress (h : Words8) (b : Block) : (compress h b).toList =
    let v := workingSet h (schedule b) 64
    [h[0] + v.a, h[1] + v.b, h[2] + v.c, h[3] + v.d, h[4] + v.e, h[5] + v.f, h[6] + v.g, h[7] + v.h] := rfl

end Rounds

/-- Settles O53: the working sets are the model's, which start at H and take one round after another. -/
theorem compressRunsTheRoundsAndFeedsForward : Obligations.CompressRunsTheRoundsAndFeedsForward :=
  fun h b => ⟨workingSet h (schedule b), rfl, fun t _ => workingSet_succ h (schedule b) t, toList_compress h b⟩

end Sys2Proof.Proofs

namespace Sys2Proof.Proofs
open Sys2Proof Sys2Proof.Machine Sys2Proof.Laws

section FramerChunk
/-! A legal SHA_CHUNK on an open session: the state it leaves, the length by halves, the blocks of the framer, and the
bytes of MSG it reads (41_framer.md R140 to R148). -/

/-- A legal chunk on an open session meets no error (41_framer.md R145). -/
theorem exec_shaChunk_of_open {n : BitVec 7} {s : State} (herr : s.err = false) (hn : n.toNat ≤ 64)
    (hopen : s.shaDone = false) : exec (.shaChunk n) s = .next (effect (.shaChunk n) s) :=
  exec_of_ok herr (by simp [commandError_shaChunk, hopen, hn])

/-- On an open session the seal is set exactly by a short chunk (41_framer.md R146). -/
theorem sealedBy_false (n : Nat) : sealedBy n false = decide (n < 64) := by
  simp [sealedBy]

theorem toNat_lenLoAfter (n : Nat) (lo : Word) : (lenLoAfter n lo).toNat = (lo.toNat + 8 * n) % 2 ^ 32 :=
  BitVec.toNat_ofNat _ _

/-- A chunk is too short for the low half to carry more than once. -/
theorem toNat_lenHiAfter {n : Nat} (lo hi : Word) (hn : n ≤ 64) :
    (lenHiAfter n lo hi).toNat = (hi.toNat + (lo.toNat + 8 * n) / 2 ^ 32) % 2 ^ 32 := by
  have hlo := lo.isLt
  have hhi := hi.isLt
  unfold lenHiAfter
  split
  · have hcarry : (lo.toNat + 8 * n) / 2 ^ 32 = 1 := by omega
    rw [hcarry]
    exact BitVec.toNat_add hi 1
  · have hcarry : (lo.toNat + 8 * n) / 2 ^ 32 = 0 := by omega
    rw [hcarry, Nat.add_zero, Nat.mod_eq_of_lt hhi]

theorem toNat_pair64_lenAfter {n : Nat} (lo hi : Word) (hn : n ≤ 64) :
    (pair64 (lenHiAfter n lo hi) (lenLoAfter n lo)).toNat = ((pair64 hi lo).toNat + 8 * n) % 2 ^ 64 := by
  rw [pair64_lenAfter lo hi hn, BitVec.toNat_add, BitVec.toNat_ofNat, Nat.add_mod_mod]

theorem digestChunk_64 (h : Words8) (b : Block) (len : BitVec 64) : digestChunk h b 64 len = compress h b := rfl

theorem digestChunk_of_le_55 (h : Words8) (b : Block) {n : Nat} (len : BitVec 64) (hn : n ≤ 55) :
    digestChunk h b n len = compress h (paddedBlock b n len) := by
  rw [digestChunk, if_neg (by omega), if_pos hn]

theorem digestChunk_of_split (h : Words8) (b : Block) {n : Nat} (len : BitVec 64) (hlow : 56 ≤ n) (hhigh : n ≤ 63) :
    digestChunk h b n len = compress (compress h (splitFirst b n)) (splitSecond len) := by
  rw [digestChunk, if_neg (by omega), if_neg (by omega)]

theorem take_blockOf (m : Words16) {n : Nat} (hn : n ≤ 64) :
    (blockOf m).take n = (List.range n).map (byteAt m) := by
  rw [blockOf, ← List.map_take, List.take_range, Nat.min_eq_left hn]

/-- Buffers with the same first n bytes give a chunk of n bytes the same digest (41_framer.md R148). -/
theorem digestChunk_congr_bytes (h : Words8) {m m' : Words16} {n : Nat} (len : BitVec 64) (hn : n ≤ 64)
    (hbytes : ∀ j, j < n → byteAt m j = byteAt m' j) :
    digestChunk h (blockOf m) n len = digestChunk h (blockOf m') n len := by
  have hhead : (blockOf m).take n = (blockOf m').take n := by
    rw [take_blockOf m hn, take_blockOf m' hn]
    exact List.map_congr_left fun j hj => hbytes j (List.mem_range.1 hj)
  rw [← digestChunk_take h len (length_blockOf m), hhead, digestChunk_take h len (length_blockOf m')]

/-- Replacing the bytes of MSG that a chunk does not read commutes with the chunk. -/
theorem effect_shaChunk_msg {n : BitVec 7} (s : State) {m : Words16} (hn : n.toNat ≤ 64)
    (hbytes : ∀ j, j < n.toNat → byteAt m j = byteAt s.msg j) :
    effect (.shaChunk n) { s with msg := m } = { effect (.shaChunk n) s with msg := m } := by
  simp only [effect, digestChunk_congr_bytes s.h _ hn hbytes]

end FramerChunk

/-- Settles O38: the command leaves its effect, whose H is by the length's range one of the framer's three forms. -/
theorem shaChunkFeedsTheFramer : Obligations.ShaChunkFeedsTheFramer := by
  intro n s herr hn hopen
  refine ⟨effect (.shaChunk n) s, exec_shaChunk_of_open herr hn hopen, ?_, toNat_pair64_lenAfter s.lenLo s.lenHi hn,
    fun hfull => ?_, fun hpad => digestChunk_of_le_55 s.h _ _ hpad,
    fun hlow hhigh => digestChunk_of_split s.h _ _ hlow hhigh⟩
  · simp only [effect, hopen, sealedBy_false]
  · simp only [effect, hfull, digestChunk_64]

/-- Settles O39: the command leaves its effect, whose two halves of LEN are the numbers of the lemmas above. -/
theorem lengthAccumulatesByHalves : Obligations.LengthAccumulatesByHalves :=
  fun n s herr hn hopen => ⟨effect (.shaChunk n) s, exec_shaChunk_of_open herr hn hopen,
    toNat_lenLoAfter n.toNat s.lenLo, toNat_lenHiAfter s.lenLo s.lenHi hn⟩

/-- Settles O40: the chunk runs from the other MSG too, and its effect commutes with the replacement. -/
theorem messageBytesFromNOnAreIgnored : Obligations.MessageBytesFromNOnAreIgnored := by
  intro n s herr hn hopen
  refine ⟨effect (.shaChunk n) s, exec_shaChunk_of_open herr hn hopen, rfl, fun m hbytes => ?_⟩
  rw [exec_shaChunk_of_open (by exact herr) hn (by exact hopen), effect_shaChunk_msg s hn hbytes]

/-- Settles O57: the program leaves LEN = 8|S| modulo 2^64, and 8|S| is below that modulus. -/
theorem hashProgramComputesSha256 : Obligations.HashProgramComputesSha256 := by
  intro b s hs hlt
  obtain ⟨t, hrun, ht, hdone, hlen, hh⟩ := performAll_hashProgram b hs
  have hlen' : (pair64 t.lenHi t.lenLo).toNat = 8 * b.length := by
    rw [hlen, BitVec.toNat_ofNat, Nat.mod_eq_of_lt hlt]
  exact ⟨t, hrun, hh, hlen', hdone, ht⟩

end Sys2Proof.Proofs

namespace Sys2Proof.Proofs
open Sys2Proof Sys2Proof.Machine Sys2Proof.Laws

section QuarterRound
/-! The quarter-round as two runs of the same four steps, which differ in their rotations (42_keystream_core.md R163). -/

/-- Four steps of the quarter-round, with rotations n and m: add, rotate, add, rotate. -/
def halfQuarterRound (n m : Nat) (a b c d : Fin 16) (x : Words16) : Words16 :=
  let x := x.set a (x[a] + x[b])
  let x := x.set d (rotl (x[d] ^^^ x[a]) n)
  let x := x.set c (x[c] + x[d])
  x.set b (rotl (x[b] ^^^ x[c]) m)

theorem quarterRound_eq_halves (a b c d : Fin 16) (x : Words16) :
    quarterRound a b c d x = halfQuarterRound 8 7 a b c d (halfQuarterRound 16 12 a b c d x) := rfl

theorem getElem_set_of_fin_self {n : Nat} (xs : Vector Word n) (v : Word) (i : Fin n) : (xs.set i v)[i] = v :=
  Vector.getElem_set_self i.isLt

/-- On four distinct positions each step reads the words that the steps before it left. -/
theorem halfQuarterRound_words (n m : Nat) {a b c d : Fin 16} (x : Words16) (hab : a ≠ b) (hac : a ≠ c) (had : a ≠ d)
    (hbc : b ≠ c) (hbd : b ≠ d) (hcd : c ≠ d) :
    let a1 := x[a] + x[b]
    let d1 := rotl (x[d] ^^^ a1) n
    let c1 := x[c] + d1
    let b1 := rotl (x[b] ^^^ c1) m
    let y := halfQuarterRound n m a b c d x
    y[a] = a1 ∧ y[b] = b1 ∧ y[c] = c1 ∧ y[d] = d1 := by
  simp only [halfQuarterRound, getElem_set_of_fin_self, getElem_set_of_fin_ne, hab, hab.symm, hac, hac.symm, had,
    had.symm, hbc, hbc.symm, hbd, hbd.symm, hcd, hcd.symm, ne_eq, not_false_eq_true, and_self]

theorem halfQuarterRound_frame (n m : Nat) {a b c d k : Fin 16} (x : Words16) (ha : k ≠ a) (hb : k ≠ b) (hc : k ≠ c)
    (hd : k ≠ d) : (halfQuarterRound n m a b c d x)[k] = x[k] := by
  simp only [halfQuarterRound, getElem_set_of_fin_ne, ha, hb, hc, hd, ne_eq, not_false_eq_true]

end QuarterRound

/-- Settles O55: the second half starts from the four words of the first, and neither half touches another word. -/
theorem quarterRoundSteps : Obligations.QuarterRoundSteps := by
  intro a b c d x hab hac had hbc hbd hcd
  rw [quarterRound_eq_halves]
  obtain ⟨ha1, hb1, hc1, hd1⟩ := halfQuarterRound_words 16 12 x hab hac had hbc hbd hcd
  obtain ⟨ha2, hb2, hc2, hd2⟩ :=
    halfQuarterRound_words 8 7 (halfQuarterRound 16 12 a b c d x) hab hac had hbc hbd hcd
  simp only [ha1, hb1, hc1, hd1] at ha2 hb2 hc2 hd2
  exact ⟨ha2, hb2, hc2, hd2, fun k ha hb hc hd =>
    (halfQuarterRound_frame 8 7 _ ha hb hc hd).trans (halfQuarterRound_frame 16 12 x ha hb hc hd)⟩

section BlockFunction
/-! The parts of the block function: the words of the State Matrix, the repetition of the double round and the
feed-forward (42_keystream_core.md R162, R166, R167). -/

theorem toList_stateMatrix (n0 n1 : Word) (k : Words8) (lo hi : Word) : (stateMatrix n0 n1 k lo hi).toList =
    [0x61707865, 0x3320646e, 0x79622d32, 0x6b206574] ++ k.toList ++ [lo, hi, n0, n1] := by
  have hkey : k.toList = (Vector.ofFn fun i : Fin 8 => k[i]).toList := congrArg Vector.toList k.ofFn_getElem.symm
  rw [hkey]
  rfl

theorem repeat_eq_iterate {α : Type} (f : α → α) (n : Nat) (x : α) : Nat.repeat f n x = f^[n] x := by
  induction n with
  | zero => rfl
  | succ n ih => rw [Function.iterate_succ_apply', ← ih, Nat.repeat]

theorem twentyRounds_eq_iterate (x : Words16) : twentyRounds x = (fun y => diagonalRound (columnRound y))^[10] x :=
  repeat_eq_iterate _ 10 x

theorem getElem_chachaBlock (k : Words8) (lo hi : Word) (i : Fin 16) : (chachaBlock k lo hi)[i] =
    (twentyRounds (stateMatrix Config.nonceC0 Config.nonceC1 k lo hi))[i] +
      (stateMatrix Config.nonceC0 Config.nonceC1 k lo hi)[i] :=
  Vector.getElem_ofFn i.isLt

end BlockFunction

/-- Settles O56: the block is the feed-forward of the model's own State Matrix and its twenty rounds. -/
theorem blockFunctionOfTheStateMatrix : Obligations.BlockFunctionOfTheStateMatrix :=
  fun k lo hi =>
    let m := stateMatrix Config.nonceC0 Config.nonceC1 k lo hi
    ⟨m, twentyRounds m, toList_stateMatrix _ _ k lo hi, twentyRounds_eq_iterate m, getElem_chachaBlock k lo hi⟩

/-- Settles O42: CHACHA_INIT has no check of its own, so that with ERR = 0 it leaves its effect. -/
theorem chachaInitLatchesTheKey : Obligations.ChachaInitLatchesTheKey :=
  ⟨decode_encode (i := .chachaInit) rfl,
    fun _ _ herr hopc hne => issue_of_fixed_ne .chachaInit herr (by decide) hopc hne,
    fun _ herr => exec_of_err .chachaInit herr,
    fun _ herr => exec_of_ok herr rfl⟩

/-- R171's example: the first words of the block of key 0 and counter 0 where both parameters are 0. -/
theorem chachaBlockWith_zero : (chachaBlockWith 0 0 (Vector.replicate 8 0) 0 0).toList.take 4 =
    [0xade0b876, 0x903df1a0, 0xe56a5d40, 0x28bd8653] := by
  decide +kernel

/-- Settles O43: CHACHA_BLOCK has no check of its own, so that with ERR = 0 it leaves its effect, whose block is that of
the two parameters. -/
theorem chachaBlockWritesTheKeystream : Obligations.ChachaBlockWritesTheKeystream :=
  ⟨decode_encode (i := .chachaBlock) rfl,
    fun _ _ herr hopc hne => issue_of_fixed_ne .chachaBlock herr (by decide) hopc hne,
    fun _ herr => exec_of_err .chachaBlock herr,
    fun _ herr => exec_of_ok herr rfl, chachaBlockWith_zero⟩

end Sys2Proof.Proofs

namespace Sys2Proof.Proofs
open Sys2Proof Sys2Proof.Machine Sys2Proof.Laws

section StreamChunk
/-! A legal CHACHA_XOR on an open stream: the bytes of DATA it leaves and the counter, by halves and as one number
(43_stream_driver.md R190 to R194). -/

/-- A legal chunk on an open stream meets no error (43_stream_driver.md R194). -/
theorem commandError_chachaXor_of_open {n : BitVec 7} {s : State} (hlow : 1 ≤ n.toNat) (hhigh : n.toNat ≤ 64)
    (hopen : s.streamDone = false) : commandError (.chachaXor n) s = none := by
  rw [commandError_chachaXor, if_neg (by omega), hopen]
  rfl

theorem exec_chachaXor_of_open {n : BitVec 7} {s : State} (herr : s.err = false) (hlow : 1 ≤ n.toNat)
    (hhigh : n.toNat ≤ 64) (hopen : s.streamDone = false) :
    exec (.chachaXor n) s = .next (effect (.chachaXor n) s) :=
  exec_of_ok herr (commandError_chachaXor_of_open hlow hhigh hopen)

theorem byteAt_xorBytes_of_lt (d out : Words16) {n j : Nat} (hn : n ≤ 64) (hj : j < n) :
    byteAt (xorBytes n d out) j = byteAt d j ^^^ byteAt out j := by
  rw [xorBytes, byteAt_bufferOf _ _ (by omega), if_pos hj]

theorem byteAt_xorBytes_of_le (d out : Words16) {n j : Nat} (hn : n ≤ j) (hj : j < 64) :
    byteAt (xorBytes n d out) j = byteAt d j := by
  rw [xorBytes, byteAt_bufferOf _ _ hj, if_neg (by omega)]

/-- The wrap of the low half is that of the word's own addition. -/
theorem ctrLoAfter_eq (lo : Word) : ctrLoAfter lo = lo + 1 := by
  unfold ctrLoAfter
  split
  · subst lo; rfl
  · rfl

theorem toNat_ctrLoAfter (lo : Word) : (ctrLoAfter lo).toNat = (lo.toNat + 1) % 2 ^ 32 := by
  rw [ctrLoAfter_eq]
  exact BitVec.toNat_add lo 1

/-- The high half takes the carry of the low half, which is 1 exactly where the low half is full. -/
theorem toNat_ctrHiAfter (lo hi : Word) :
    (ctrHiAfter lo hi).toNat = (hi.toNat + (lo.toNat + 1) / 2 ^ 32) % 2 ^ 32 := by
  have hhi := hi.isLt
  unfold ctrHiAfter
  split
  · subst lo
    exact BitVec.toNat_add hi 1
  · have hcarry : (lo.toNat + 1) / 2 ^ 32 = 0 := by bv_omega
    rw [hcarry, Nat.add_zero, Nat.mod_eq_of_lt hhi]

/-- The two halves of CTR count as one 64-bit number (43_stream_driver.md R191, R192). -/
theorem toNat_pair64_ctrAfter (lo hi : Word) :
    (pair64 (ctrHiAfter lo hi) (ctrLoAfter lo)).toNat = ((pair64 hi lo).toNat + 1) % 2 ^ 64 := by
  rw [toNat_pair64, toNat_pair64, toNat_ctrHiAfter, toNat_ctrLoAfter]
  have hlo := lo.isLt
  omega

end StreamChunk

/-- Settles O44: the command meets no error and leaves its effect, whose DATA bytes and counter are those of the lemmas
above. -/
theorem chachaXorEncryptsAChunk : Obligations.ChachaXorEncryptsAChunk := by
  intro n s herr hlow hhigh hopen
  refine ⟨effect (.chachaXor n) s, exec_chachaXor_of_open herr hlow hhigh hopen, ?_, rfl,
    fun j hj => byteAt_xorBytes_of_lt s.data _ hhigh hj, fun j hn hj => byteAt_xorBytes_of_le s.data _ hn hj,
    toNat_pair64_ctrAfter s.ctrLo s.ctrHi⟩
  simp only [effect, hopen, sealedBy_false]

/-- Settles O46: the command leaves its effect, whose two halves of CTR are the numbers of the lemmas above; of the
flags the effect writes only the seal. -/
theorem counterCarriesAndWraps : Obligations.CounterCarriesAndWraps := by
  intro n s herr hlow hhigh hopen
  refine ⟨effect (.chachaXor n) s, exec_chachaXor_of_open herr hlow hhigh hopen, toNat_ctrLoAfter s.ctrLo,
    toNat_ctrHiAfter s.ctrLo s.ctrHi, fun hhi hlo => ?_, herr, rfl, rfl, ?_⟩
  · simp only [effect, hhi, hlo]
    exact ⟨rfl, rfl⟩
  · simp only [effect, hopen, sealedBy_false]

section StreamProgram
/-! The host's streaming program: the words of a piece, a chunk, and the pieces of a string
(43_stream_driver.md R197). -/

/-- The state with MSG and DATA exchanged. The window treats the two buffers alike (20_memory.md R66, R67). -/
def swapBuffers (s : State) : State := { s with msg := s.data, data := s.msg }

/-- Writing words to DATA is writing them to MSG, with the two buffers exchanged before and after. -/
theorem performAll_dataWrites (w : Nat → Word) {ks : List Nat} (hks : ∀ k ∈ ks, k < 16) :
    ∀ {s t : State}, s.busy = false →
      performAll (ks.map fun k => wr (offsetOf (.msg 0) + 4 * k) (w k)) (swapBuffers s) = .next t →
      performAll (ks.map fun k => wr (offsetOf (.data 0) + 4 * k) (w k)) s = .next (swapBuffers t) := by
  induction ks with
  | nil =>
    intro s t _ h
    cases h
    rfl
  | cons k ks ih =>
    intro s t hb h
    obtain ⟨hk, hks⟩ := List.forall_mem_cons.1 hks
    have hmsg : offsetOf (.msg 0) + 4 * k = offsetOf (.msg ⟨k, hk⟩) := by simp [offsetOf]
    have hdata : offsetOf (.data 0) + 4 * k = offsetOf (.data ⟨k, hk⟩) := by simp [offsetOf]
    have hwriteMsg := perform_wr (r := .msg ⟨k, hk⟩) (s := swapBuffers s) (w k) hb nofun nofun
    have hwriteData := perform_wr (r := .data ⟨k, hk⟩) (w k) hb nofun nofun
    rw [List.map_cons, hmsg, performAll_cons_of_next hwriteMsg] at h
    rw [List.map_cons, hdata, performAll_cons_of_next hwriteData]
    exact ih hks hb h

/-- Loading at most 64 bytes puts them at the head of DATA (20_memory.md R67, 30_encoding.md R99). -/
theorem performAll_ldData {p : List Byte} {s : State} (hb : s.busy = false) (hp : p.length ≤ 64) :
    ∃ (m : Words16) (rs : List Response),
      performAll (ldData p) s = .next { s with data := m, responses := rs } ∧ (blockOf m).take p.length = p := by
  obtain ⟨m, rs, hrun, htake⟩ := performAll_ldMsg (s := swapBuffers s) hb hp
  have hwords : ∀ k ∈ List.range ((p.length + 3) / 4), k < 16 := fun k hk => by
    have := List.mem_range.1 hk
    omega
  exact ⟨m, rs, performAll_dataWrites _ hwords hb hrun, htake⟩

/-- The bytes of a piece, each XORed with the byte of the block at its place (43_stream_driver.md R190). -/
def xorWithBlock (p : List Byte) (out : Words16) : List Byte := List.zipWith (· ^^^ ·) p (blockOf out)

theorem length_xorWithBlock {p : List Byte} (out : Words16) (hp : p.length ≤ 64) :
    (xorWithBlock p out).length = p.length := by
  rw [xorWithBlock, List.length_zipWith, length_blockOf, Nat.min_eq_left hp]

/-- XOR with one and the same block twice gives the piece back (43_stream_driver.md R195). -/
theorem xorWithBlock_xorWithBlock {p : List Byte} (out : Words16) (hp : p.length ≤ 64) :
    xorWithBlock (xorWithBlock p out) out = p := by
  refine List.ext_getElem (by simp only [length_xorWithBlock, hp]) fun j _ _ => ?_
  simp [xorWithBlock]

/-- The result bytes of a chunk are its bytes XORed with the block. -/
theorem take_blockOf_xorBytes (d out : Words16) {n : Nat} (hn : n ≤ 64) :
    (blockOf (xorBytes n d out)).take n = xorWithBlock ((blockOf d).take n) out := by
  refine List.ext_getElem (by simp [xorWithBlock, hn]) fun j hj _ => ?_
  have hjn : j < n := by simpa [hn] using hj
  simp [xorWithBlock, blockOf, byteAt_xorBytes_of_lt d out hn hjn]

/-- What one chunk of 1 to 64 bytes leaves: the result bytes in DATA, the counter advanced under the same latched key,
and the seal if it is short. -/
theorem performAll_xorChunk {p : List Byte} {s : State} (hs : s.ready) (hopen : s.streamDone = false)
    (hlow : 1 ≤ p.length) (hhigh : p.length ≤ 64) :
    ∃ t : State, performAll (xorChunk p) s = .next t ∧ t.ready ∧ t.streamDone = decide (p.length < 64) ∧
      t.smk = s.smk ∧ t.ctrLo = ctrLoAfter s.ctrLo ∧ t.ctrHi = ctrHiAfter s.ctrLo s.ctrHi ∧
      (blockOf t.data).take p.length = xorWithBlock p (chachaBlock s.smk s.ctrLo s.ctrHi) := by
  obtain ⟨m, rs, hload, htake⟩ := performAll_ldData hs.1 hhigh
  have hn : (BitVec.ofNat 7 p.length).toNat = p.length := by
    rw [BitVec.toNat_ofNat]
    omega
  have hwf : (Instr.chachaXor (BitVec.ofNat 7 p.length)).wellFormed = true := by
    simp only [Instr.wellFormed, hn, hlow, hhigh, and_self, decide_true]
  have hloaded : State.ready { s with data := m, responses := rs } := hs
  have hc : commandError (.chachaXor (BitVec.ofNat 7 p.length)) { s with data := m, responses := rs } = none :=
    commandError_chachaXor_of_open (by rwa [hn]) (by rwa [hn]) hopen
  refine ⟨_, ?_, ready_effect (.chachaXor (BitVec.ofNat 7 p.length)) .writeDone hloaded, ?_, rfl, rfl, rfl, ?_⟩
  · rw [xorChunk, performAll_append_of_next hload, performAll_cons_of_next (perform_cmd hloaded hwf hc)]
    rfl
  · simp only [effect, respond_streamDone, hn, hopen, sealedBy_false]
  · simp only [effect, respond_data, respond_smk, respond_ctrLo, respond_ctrHi, hn]
    rw [take_blockOf_xorBytes _ _ hhigh, htake]

/-- Two CORES that take commands at the same place of the same open stream: the same latched key and counter. -/
structure SameStream (s r : State) : Prop where
  ready_left : s.ready
  ready_right : r.ready
  open_left : s.streamDone = false
  open_right : r.streamDone = false
  smk : s.smk = r.smk
  ctrLo : s.ctrLo = r.ctrLo
  ctrHi : s.ctrHi = r.ctrHi

theorem streamPieces_cons_of_next {p : List Byte} {ps : List (List Byte)} {s t u : State} {out : List Byte}
    (h : performAll (xorChunk p) s = .next t) (hrest : streamPieces ps t = some (u, out)) :
    streamPieces (p :: ps) s = some (u, (blockOf t.data).take p.length ++ out) := by
  simp [streamPieces, h, hrest]

/-- At the same place of a stream, the one CORE gives x for a chunk p at the head of its pieces and the other gives p
for x, and a full chunk takes both to the same next place (43_stream_driver.md R195, R196). -/
theorem SameStream.chunk_undone {s r : State} (h : SameStream s r) {p : List Byte} (hlow : 1 ≤ p.length)
    (hhigh : p.length ≤ 64) :
    ∃ (t u : State) (x : List Byte), x.length = p.length ∧
      (∀ ps t' out, streamPieces ps t = some (t', out) → streamPieces (p :: ps) s = some (t', x ++ out)) ∧
      (∀ ps u' out, streamPieces ps u = some (u', out) → streamPieces (x :: ps) r = some (u', p ++ out)) ∧
      (p.length = 64 → SameStream t u) := by
  have hx := length_xorWithBlock (chachaBlock s.smk s.ctrLo s.ctrHi) hhigh
  obtain ⟨t, hrun, ht, hdone, hsmk, hlo, hhi, hout⟩ :=
    performAll_xorChunk h.ready_left h.open_left hlow hhigh
  obtain ⟨u, hrun', hu, hdone', hsmk', hlo', hhi', hback⟩ :=
    performAll_xorChunk h.ready_right h.open_right (hx ▸ hlow) (hx ▸ hhigh)
  rw [← h.smk, ← h.ctrLo, ← h.ctrHi, xorWithBlock_xorWithBlock _ hhigh] at hback
  refine ⟨t, u, _, hx, fun ps t' out hrest => ?_, fun ps u' out hrest => ?_, fun hfull => ?_⟩
  · rw [streamPieces_cons_of_next hrun hrest, hout]
  · rw [streamPieces_cons_of_next hrun' hrest, hback]
  · exact ⟨ht, hu, by simp [hdone, hfull], by simp [hdone', hx, hfull], by rw [hsmk, hsmk', h.smk],
      by rw [hlo, hlo', h.ctrLo], by rw [hhi, hhi', h.ctrLo, h.ctrHi]⟩

/-- A string of 1 to 63 bytes is one piece (43_stream_driver.md R197). -/
theorem pieces_of_lt_64 {b : List Byte} (hlow : 1 ≤ b.length) (hb : b.length < 64) : pieces b = [b] := by
  have hcount : (b.length + 63) / 64 = 1 := by omega
  simp [pieces, hcount, piece, List.take_of_length_le hb.le]

/-- From the same place of a stream, the one CORE gives as many bytes as it takes and the other gives the input back:
piece by piece, and only the last piece may be short and so seal (43_stream_driver.md R196 to R198). -/
theorem SameStream.streamPieces_undone (b : List Byte) : ∀ {s r : State}, SameStream s r →
    ∃ (t : State) (out : List Byte), streamPieces (pieces b) s = some (t, out) ∧ out.length = b.length ∧
      ∃ u : State, streamPieces (pieces out) r = some (u, b) := by
  induction b using blockInduction with
  | short b hb =>
    intro s r h
    rcases Nat.eq_zero_or_pos b.length with hempty | hlow
    · rw [List.eq_nil_of_length_eq_zero hempty]
      exact ⟨s, [], rfl, rfl, r, rfl⟩
    · obtain ⟨t, u, x, hx, hforth, hback, _⟩ := h.chunk_undone hlow hb.le
      rw [pieces_of_lt_64 hlow hb]
      refine ⟨t, x ++ [], hforth [] t [] rfl, ?_, u, ?_⟩
      · rw [List.append_nil, hx]
      · rw [List.append_nil, pieces_of_lt_64 (hx ▸ hlow) (hx ▸ hb), hback [] u [] rfl, List.append_nil]
  | full p b hp ih =>
    intro s r h
    obtain ⟨t, u, x, hx, hforth, hback, hnext⟩ := h.chunk_undone (by omega) hp.le
    obtain ⟨t', out, hrest, hlength, u', hrest'⟩ := ih (hnext hp)
    rw [pieces_append b hp]
    refine ⟨t', x ++ out, hforth _ _ _ hrest, ?_, u', ?_⟩
    · rw [List.length_append, List.length_append, hx, hlength]
    · rw [pieces_append out (hx.trans hp), hback _ _ _ hrest']

/-- A cipher stream is its pieces, run from the state that CHACHA_INIT leaves. -/
theorem cipherStream_of_ready (b : List Byte) {s : State} (hs : s.ready) :
    cipherStream b s = streamPieces (pieces b) (effect .chachaInit (respond .writeDone s)) := by
  rw [cipherStream, perform_cmd hs rfl rfl]

end StreamProgram

/-- Settles O59: CHACHA_INIT under the same KEY takes both states to the start of the same stream. -/
theorem streamDecryptsItself : Obligations.StreamDecryptsItself := by
  intro b s r hs hr hkey
  have hstart : SameStream (effect .chachaInit (respond .writeDone s)) (effect .chachaInit (respond .writeDone r)) :=
    ⟨ready_effect _ _ hs, ready_effect _ _ hr, rfl, rfl, hkey, rfl, rfl⟩
  simp only [cipherStream_of_ready _ hs, cipherStream_of_ready _ hr]
  exact hstart.streamPieces_undone b

end Sys2Proof.Proofs

namespace Sys2Proof.Proofs
open Sys2Proof Sys2Proof.Machine Sys2Proof.Laws

/-- NOP, ignored or not, leaves the state as it was (44_control.md R210): its effect is the state itself. -/
theorem exec_nop (s : State) : exec .nop s = .next s := by
  cases herr : s.err with
  | true => exact exec_of_err .nop herr
  | false => exact exec_of_ok herr rfl

/-- Settles O35: NOP is without effect, and a word that only shares its OPC is not its encoding. -/
theorem nopDoesNothing : Obligations.NopDoesNothing :=
  ⟨decode_encode (i := .nop) rfl, exec_nop,
    fun _ _ herr hopc hne => issue_of_fixed_ne .nop herr (by decide) hopc hne⟩

/-- Settles O41: KEY_FROM_DIGEST has no check of its own, SHA_DONE included, so that with ERR = 0 it leaves its effect,
whose KEY is H. -/
theorem keyFromDigestCopiesTheDigest : Obligations.KeyFromDigestCopiesTheDigest :=
  ⟨decode_encode (i := .keyFromDigest) rfl,
    fun _ _ herr hopc hne => issue_of_fixed_ne .keyFromDigest herr (by decide) hopc hne,
    fun _ herr => exec_of_err .keyFromDigest herr,
    fun s herr => ⟨effect .keyFromDigest s, exec_of_ok herr rfl, rfl, fun _ => rfl⟩⟩

end Sys2Proof.Proofs

namespace Sys2Proof.Proofs
open Sys2Proof Sys2Proof.Machine Sys2Proof.Laws

section CmdWriteChecks
/-! The checks of a CMD write, each with the outcome of the first that fails (60_exceptions.md R226, R227). -/

/-- While ERR = 1 a CMD write is discarded without decoding (60_exceptions.md R228). -/
theorem issue_of_err (v : Word) {s : State} (herr : s.err = true) : issue v s = .next s := by
  rw [issue, if_pos herr]

theorem issue_of_illegalCmd {v : Word} {s : State} (herr : s.err = false) (hd : decode v = .illegalCmd) :
    issue v s = .next (raiseError .illegalCmd v s) := by
  simp [issue, herr, hd]

theorem issue_of_badLength {v : Word} {s : State} (herr : s.err = false) (hd : decode v = .badLength) :
    issue v s = .next (raiseError .badLength v s) := by
  simp [issue, herr, hd]

/-- A command that fails one of its own checks enters that error with its own word. -/
theorem exec_of_error {i : Instr} {s : State} {c : ErrorCode} (herr : s.err = false)
    (hc : commandError i s = some c) : exec i s = .next (raiseError c (encode i) s) := by
  rw [exec_eq_runCommand, runCommand_of_error herr hc]

/-- The word recorded for an issued command that fails one of its checks is the word issued. -/
theorem issue_of_commandError {v : Word} {i : Instr} {s : State} {c : ErrorCode} (herr : s.err = false)
    (hd : decode v = .cmd i) (hc : commandError i s = some c) : issue v s = .next (raiseError c v s) := by
  rw [issue_of_cmd s hd, exec_of_error herr hc, encode_of_decode hd]

theorem wellFormed_shaChunk {n : BitVec 7} (h : (Instr.shaChunk n).wellFormed = true) : n.toNat ≤ 64 := by
  simpa [Instr.wellFormed] using h

/-- The length of SHA_CHUNK is checked before its seal. -/
theorem commandError_shaChunk_of_gt {n : BitVec 7} (s : State) (hn : 64 < n.toNat) :
    commandError (.shaChunk n) s = some .badLength := by
  rw [commandError_shaChunk, if_pos hn]

theorem commandError_shaChunk_of_sealed {n : BitVec 7} {s : State} (hn : n.toNat ≤ 64) (hs : s.shaDone = true) :
    commandError (.shaChunk n) s = some .shaSealed := by
  rw [commandError_shaChunk, if_neg (by omega), if_pos hs]

/-- The length of CHACHA_XOR is checked before its seal. -/
theorem commandError_chachaXor_of_length {n : BitVec 7} (s : State) (hn : n.toNat = 0 ∨ 64 < n.toNat) :
    commandError (.chachaXor n) s = some .badLength := by
  rw [commandError_chachaXor, if_pos hn]

theorem commandError_chachaXor_of_sealed {n : BitVec 7} {s : State} (hlow : 1 ≤ n.toNat) (hhigh : n.toNat ≤ 64)
    (hs : s.streamDone = true) : commandError (.chachaXor n) s = some .streamSealed := by
  rw [commandError_chachaXor, if_neg (by omega), if_pos hs]

/-- A legal command meets no error unless it is one of the two chunk commands and its session is sealed. -/
theorem commandError_of_open {i : Instr} {s : State} (hwf : i.wellFormed = true)
    (hsha : ∀ n, i = .shaChunk n → s.shaDone = false) (hstream : ∀ n, i = .chachaXor n → s.streamDone = false) :
    commandError i s = none := by
  cases i with
  | shaChunk n =>
    have hn := wellFormed_shaChunk hwf
    rw [commandError_shaChunk, if_neg (by omega), hsha n rfl]
    rfl
  | chachaXor n =>
    obtain ⟨hlow, hhigh⟩ := wellFormed_chachaXor hwf
    exact commandError_chachaXor_of_open hlow hhigh (hstream n rfl)
  | _ => rfl

theorem effect_err (i : Instr) (s : State) : (effect i s).err = s.err := by
  obtain ⟨_, _, _, herr, _⟩ := effect_host i s
  exact herr

end CmdWriteChecks

/-- Settles O7: the step issues the word on the answered state, where the checks are made in the order of R226; a
decoded word has a legal length, so that of the command's own checks only the seal can fail. -/
theorem cmdWriteChecksInOrder : Obligations.CmdWriteChecksInOrder := by
  intro s v rest hbusy hpending entered
  have hstep := step_issue hbusy hpending
  refine ⟨fun herr => ?_, fun herr hd => ?_, fun herr hd => ?_, fun n herr hd hseal => ?_, fun n herr hd hseal => ?_,
    fun i herr hd hsha hstream => ?_⟩
  · exact hstep.trans (issue_of_err v herr)
  · exact hstep.trans (issue_of_illegalCmd herr hd)
  · exact hstep.trans (issue_of_badLength herr hd)
  · have hn := wellFormed_shaChunk (wellFormed_of_decode hd)
    exact hstep.trans (issue_of_commandError herr hd (commandError_shaChunk_of_sealed hn hseal))
  · obtain ⟨hlow, hhigh⟩ := wellFormed_chachaXor (wellFormed_of_decode hd)
    exact hstep.trans (issue_of_commandError herr hd (commandError_chachaXor_of_sealed hlow hhigh hseal))
  · have hexec : exec i (s.answered rest .writeDone) = .next (effect i (s.answered rest .writeDone)) :=
      exec_of_ok herr (commandError_of_open (wellFormed_of_decode hd) hsha hstream)
    exact ⟨_, (hstep.trans (issue_of_cmd _ hd)).trans hexec, hexec, (effect_err i _).trans herr⟩

section ErrorIsSticky
/-! What an access can do to the error record while ERR = 1 (60_exceptions.md R228 to R230). -/

theorem SameFlagsAndHidden.refl (s : State) : SameFlagsAndHidden s s := ⟨rfl, rfl, rfl, rfl, rfl, rfl, rfl, rfl⟩

theorem SameFlagsAndHidden.written (r : Reg) (v : Word) (s : State) : SameFlagsAndHidden s (written r v s) := by
  cases r <;> exact ⟨rfl, rfl, rfl, rfl, rfl, rfl, rfl, rfl⟩

/-- The write of an RW register, at its own offset. -/
theorem writesTo_of_writable {s : State} {r : Reg} (v : Word) (hb : s.busy = false) (hr : r.writable = true) :
    s.writesTo (offsetOf r) v (written r v s) := by
  obtain ⟨hlt, halign⟩ := offsetOf_lt_and_aligned r
  have hcmd : r ≠ .cmd := by rintro rfl; cases hr
  have hstatus : r ≠ .status := by rintro rfl; cases hr
  refine writesTo_of_writeReg hb hlt halign fun rest => ?_
  rw [regAt_offsetOf, writeReg_eq_written v _ hcmd hstatus, written_answered]

/-- While ERR = 1 no legal write changes the error record but the error clear. -/
theorem writeReg_of_err {r : Reg} {v : Word} {s t : State} (herr : s.err = true) (h : writeReg r v s = .next t) :
    SameFlagsAndHidden s t ∨ (r = .status ∧ v.getLsbD 3 = true ∧ t = clearError s) := by
  cases r with
  | cmd =>
    obtain rfl := Host.Outcome.next.inj (h.symm.trans (issue_of_err v herr))
    exact .inl (.refl _)
  | status =>
    obtain rfl := Host.Outcome.next.inj h
    split
    · exact .inr ⟨rfl, ‹_›, rfl⟩
    · exact .inl (.refl _)
  | _ =>
    rw [Host.Outcome.next.inj (h.symm.trans (writeReg_eq_written v s nofun nofun))]
    exact .inl (.written _ v s)

end ErrorIsSticky

/-- Settles O8: a CMD write is discarded, and no other access looks at ERR. -/
theorem commandsAreIgnoredWhileError : Obligations.CommandsAreIgnoredWhileError := by
  intro s hb herr
  refine ⟨fun v => ?_, readsAs_offsetOf hb, fun r v hr => ?_⟩
  · exact writesTo_of_writeReg hb (by decide) (by decide) fun _ => issue_of_err v herr
  · exact ⟨written r v s, writesTo_of_writable v hb hr, readReg_written_same v s hr, written_responses r v s,
      (SameFlagsAndHidden.written r v s).err.trans herr⟩

/-- Settles O11: of the events that answer a next state only the error clear and reset change the error record. -/
theorem firstErrorIsKept : Obligations.FirstErrorIsKept := by
  intro s t e rest herr hp hstep
  rw [step_of_pending hp] at hstep
  obtain ⟨off, n, rfl, _, ⟨_, rfl⟩ | ⟨_, rfl⟩⟩ | ⟨off, n, v, rfl, ho, _, ⟨_, rfl⟩ | ⟨hbus, hw⟩⟩ | ⟨rfl, rfl⟩ :=
    perform_cases hstep
  · exact .inl ⟨herr, rfl, rfl⟩
  · exact .inl ⟨herr, rfl, rfl⟩
  · exact .inl ⟨herr, rfl, rfl⟩
  · obtain ⟨rfl, ha⟩ := isBusError_false.1 hbus
    obtain hsame | ⟨hstatus, hbit, rfl⟩ := writeReg_of_err (by exact herr) hw
    · exact .inl ⟨hsame.err.trans herr, hsame.errCode, hsame.errCmd⟩
    · obtain rfl := eq_offsetOf_of_regAt_eq ho ha hstatus (by decide)
      exact .inr ⟨rfl, .inr ⟨v, hbit, rfl⟩⟩
  · exact .inr ⟨rfl, .inl rfl⟩

/-- Settles O9: every command goes through `runCommand`, which looks at ERR first. -/
theorem everyCommandIsIgnoredWhileError : Obligations.EveryCommandIsIgnoredWhileError :=
  fun i _ herr => exec_of_err i herr

/-- Settles O10: the two branches of a write to STATUS. -/
theorem statusWriteClearsTheError : Obligations.StatusWriteClearsTheError := by
  intro s v hb
  have hwrite := writesTo_status v hb
  constructor
  · intro hset
    rwa [if_pos hset] at hwrite
  · intro hclear
    rwa [if_neg (ne_true_of_eq_false hclear)] at hwrite

/-- Settles O12: the length is checked before the seal, and either error is entered with the command's word. -/
theorem shaChunkErrors : Obligations.ShaChunkErrors :=
  fun _ s herr => ⟨fun hn => exec_of_error herr (commandError_shaChunk_of_gt s hn),
    fun hn hs => exec_of_error herr (commandError_shaChunk_of_sealed hn hs)⟩

/-- Settles O13: the length is checked before the seal, and either error is entered with the command's word. -/
theorem chachaXorErrors : Obligations.ChachaXorErrors :=
  fun _ s herr => ⟨fun hn => exec_of_error herr (commandError_chachaXor_of_length s hn),
    fun hlow hhigh hs => exec_of_error herr (commandError_chachaXor_of_sealed hlow hhigh hs)⟩

end Sys2Proof.Proofs

namespace Sys2Proof.Proofs
open Sys2Proof Sys2Proof.Machine Sys2Proof.Laws

section IndependentUnits
/-! What a hash command and a cipher command share: nothing that either writes (70_reset_and_hazards.md R254). -/

theorem effect_streamDone_of_hash {i : Instr} (s : State) (hi : isHashCommand i = true) :
    (effect i s).streamDone = s.streamDone := by
  by_contra hne
  obtain ⟨rfl, _⟩ | ⟨_, rfl, _⟩ := effect_streamDone_of_ne hne <;> cases hi

theorem effect_shaDone_of_cipher {j : Instr} (s : State) (hj : isCipherCommand j = true) :
    (effect j s).shaDone = s.shaDone := by
  by_contra hne
  obtain ⟨rfl, _⟩ | ⟨_, rfl, _⟩ := effect_shaDone_of_ne hne <;> cases hj

/-- Each unit's commands read and write fields of its own, MSG and KEY being read by one unit and written by neither. -/
theorem effect_comm_of_hash_of_cipher {i j : Instr} (s : State) (hi : isHashCommand i = true)
    (hj : isCipherCommand j = true) : effect j (effect i s) = effect i (effect j s) := by
  cases i with
  | shaInit | shaCompress | shaChunk n =>
    cases j with
    | chachaInit | chachaBlock | chachaXor m => simp only [effect]
    | _ => cases hj
  | _ => cases hi

/-- A legal hash command can fail on the seal of its own unit only. -/
theorem commandError_of_hash {i : Instr} {s : State} (hi : isHashCommand i = true) (hwf : i.wellFormed = true)
    (hsha : ∀ n, i = .shaChunk n → s.shaDone = false) : commandError i s = none :=
  commandError_of_open hwf hsha (by rintro n rfl; cases hi)

/-- A legal cipher command can fail on the seal of its own unit only. -/
theorem commandError_of_cipher {j : Instr} {s : State} (hj : isCipherCommand j = true) (hwf : j.wellFormed = true)
    (hstream : ∀ n, j = .chachaXor n → s.streamDone = false) : commandError j s = none :=
  commandError_of_open hwf (by rintro n rfl; cases hj) hstream

end IndependentUnits

/-- Settles O34: the first command keeps ERR and the seal that the second one checks, so that both orders complete, and
their effects commute. -/
theorem hashAndCipherCommandsCommute : Obligations.HashAndCipherCommandsCommute := by
  intro i j s hi hj herr hwfi hwfj hsha hstream
  have hshaAfter : ∀ n, i = .shaChunk n → (effect j s).shaDone = false :=
    fun n h => (effect_shaDone_of_cipher s hj).trans (hsha n h)
  have hstreamAfter : ∀ n, j = .chachaXor n → (effect i s).streamDone = false :=
    fun n h => (effect_streamDone_of_hash s hi).trans (hstream n h)
  refine ⟨effect i s, effect j s, effect j (effect i s), ?_, ?_, ?_, ?_⟩
  · exact exec_of_ok herr (commandError_of_hash hi hwfi hsha)
  · exact exec_of_ok ((effect_err i s).trans herr) (commandError_of_cipher hj hwfj hstreamAfter)
  · exact exec_of_ok herr (commandError_of_cipher hj hwfj hstream)
  · rw [effect_comm_of_hash_of_cipher s hi hj]
    exact exec_of_ok ((effect_err j s).trans herr) (commandError_of_hash hi hwfi hshaAfter)

/-- Settles O24: the step performs the reset event, which looks at no field of the state. -/
theorem resetInputResetsEverything : Obligations.ResetInputResetsEverything :=
  fun s rest => step_of_pending (s := s.withPending (.reset :: rest)) rfl

end Sys2Proof.Proofs
